-- ==== Sys2Proof/Config.lean ====
section
/-! DEFINITION. The parameters of the block (R9) and the one value the model chooses. The block has no free value:
the spec leaves no result of an instruction undefined. -/

namespace Sys2Proof.Config

/-- Bytes of working RAM (R9, R31). -/
def ramSize : Nat := 2048
/-- Bytes of the video-register stub (R9, R31). -/
def ppuStubSize : Nat := 8
/-- Bytes of the audio/IO stub (R9, R31). -/
def ioStubSize : Nat := 24
/-- Bytes of one program block, and the smaller program-ROM size (R9, R83). -/
def prgUnit : Nat := 16384
/-- Bytes of one graphics block (R83). -/
def chrUnit : Nat := 8192
/-- Bytes of a container header (R80). -/
def headerSize : Nat := 16
/-- Bytes of a trainer that is present (R86). -/
def trainerSize : Nat := 512

/-- The open-bus sentinel (R9, R60). -/
def openBus : BitVec 8 := 0xFF
/-- The base of the stack page (R9, R22). -/
def stackPage : BitVec 16 := 0x0100
/-- The reset vector: low byte here, high byte one above (R9, R68). -/
def resetVector : BitVec 16 := 0xFFFC
/-- The interrupt (BRK) vector: low byte here, high byte one above (R9, R68). -/
def brkVector : BitVec 16 := 0xFFFE
/-- SP after `reset()` (R36, R360, decision D4). -/
def resetSp : BitVec 8 := 0xFD

/-- DESIGN CHOICE (notes/assumptions/1.md), unsafe. What a byte that no cell lists reads as. For RAM and the stubs
the spec leaves the initial contents OPEN (R31). -/
def unlisted : BitVec 8 := 0x00

end Sys2Proof.Config
end

