-- ==== Sys2Proof/Word.lean ====
section
/-! DEFINITION. The two word types of the block (R9, R10). -/

namespace Sys2Proof

/-- The data width: A, X, Y, SP, P and bus data (R9). -/
abbrev Byte := BitVec 8

/-- The address width: PC and bus addresses (R9). -/
abbrev Addr := BitVec 16

end Sys2Proof
end

