-- ==== Sys2Proof/Syntax.lean ====
section
/-! DEFINITION. The instructions: the mode tags (R28), the operand forms (R101, R133), the mnemonics, and
`Instr`, one constructor per official row of the opcode table and one for the rows named ILLEGAL. -/

namespace Sys2Proof

/-- The addressing-mode tag of a descriptor: the closed list of twelve (R28). -/
inductive AddrMode where
  | implied | accumulator | immediate | zeroPage | zeroPageX | zeroPageY | relative
  | absolute | absoluteX | absoluteY | indirectX | indirectY
  deriving DecidableEq, Repr

/-- The number of operand bytes a mode takes (R102). -/
def AddrMode.operandBytes : AddrMode → Nat
  | .implied | .accumulator => 0
  | .absolute | .absoluteX | .absoluteY => 2
  | .immediate | .zeroPage | .zeroPageX | .zeroPageY | .relative | .indirectX | .indirectY => 1

/-- An operand of one of the eight memory modes, with the assembled operand bytes (R104, R106). -/
inductive MemOperand where
  | zp (z : Byte) | zpX (z : Byte) | zpY (z : Byte)
  | abs (a : Addr) | absX (a : Addr) | absY (a : Addr)
  | indX (z : Byte) | indY (z : Byte)
  deriving DecidableEq, Repr

/-- The mode tag of a memory operand (R101). -/
def MemOperand.mode : MemOperand → AddrMode
  | .zp _ => .zeroPage | .zpX _ => .zeroPageX | .zpY _ => .zeroPageY
  | .abs _ => .absolute | .absX _ => .absoluteX | .absY _ => .absoluteY
  | .indX _ => .indirectX | .indY _ => .indirectY

/-- An operand as it stands in the instruction bytes (R101, R133). -/
inductive Operand where
  | implied
  | accumulator
  | immediate (v : Byte)
  | relative (o : Byte)
  | memory (m : MemOperand)
  deriving DecidableEq, Repr

/-- The mode tag of an operand (R28, R101). -/
def Operand.mode : Operand → AddrMode
  | .implied => .implied
  | .accumulator => .accumulator
  | .immediate _ => .immediate
  | .relative _ => .relative
  | .memory m => m.mode

/-- The mnemonics of the opcode table: 56 official ones and ILLEGAL (R18, R29, R108). -/
inductive Mnemonic where
  | lda | ldx | ldy | sta | stx | sty | tax | tay | tsx | txa
  | txs | tya | pha | php | pla | plp | adc | sbc | and | ora
  | eor | bit | cmp | cpx | cpy | inc | dec | inx | iny | dex
  | dey | asl | lsr | rol | ror | bpl | bmi | bvc | bvs | bcc
  | bcs | bne | beq | jmp | brk | rti | jsr | rts | clc | cld
  | cli | clv | sec | sed | sei | nop | illegal
  deriving DecidableEq, Repr

/-- The instructions. Each official row of opcode_table.json is a constructor whose argument is the assembled
operand: `v` an immediate byte (R103), `z` a zero-page byte (R104), `o` a branch offset (R105), and a 16-bit
address `a`, target `t` or pointer `ptr` (R106). The 105 rows named ILLEGAL are `illegal op` with `op` the byte
of the row (R110). -/
inductive Instr where
  | ldaIndX (z : Byte)
  | ldaZp (z : Byte)
  | ldaImm (v : Byte)
  | ldaAbs (a : Addr)
  | ldaIndY (z : Byte)
  | ldaZpX (z : Byte)
  | ldaAbsY (a : Addr)
  | ldaAbsX (a : Addr)
  | ldxImm (v : Byte)
  | ldxZp (z : Byte)
  | ldxAbs (a : Addr)
  | ldxZpY (z : Byte)
  | ldxAbsY (a : Addr)
  | ldyImm (v : Byte)
  | ldyZp (z : Byte)
  | ldyAbs (a : Addr)
  | ldyZpX (z : Byte)
  | ldyAbsX (a : Addr)
  | staIndX (z : Byte)
  | staZp (z : Byte)
  | staAbs (a : Addr)
  | staIndY (z : Byte)
  | staZpX (z : Byte)
  | staAbsY (a : Addr)
  | staAbsX (a : Addr)
  | stxZp (z : Byte)
  | stxAbs (a : Addr)
  | stxZpY (z : Byte)
  | styZp (z : Byte)
  | styAbs (a : Addr)
  | styZpX (z : Byte)
  | tax
  | tay
  | tsx
  | txa
  | txs
  | tya
  | pha
  | php
  | pla
  | plp
  | adcIndX (z : Byte)
  | adcZp (z : Byte)
  | adcImm (v : Byte)
  | adcAbs (a : Addr)
  | adcIndY (z : Byte)
  | adcZpX (z : Byte)
  | adcAbsY (a : Addr)
  | adcAbsX (a : Addr)
  | sbcIndX (z : Byte)
  | sbcZp (z : Byte)
  | sbcImm (v : Byte)
  | sbcAbs (a : Addr)
  | sbcIndY (z : Byte)
  | sbcZpX (z : Byte)
  | sbcAbsY (a : Addr)
  | sbcAbsX (a : Addr)
  | andIndX (z : Byte)
  | andZp (z : Byte)
  | andImm (v : Byte)
  | andAbs (a : Addr)
  | andIndY (z : Byte)
  | andZpX (z : Byte)
  | andAbsY (a : Addr)
  | andAbsX (a : Addr)
  | oraIndX (z : Byte)
  | oraZp (z : Byte)
  | oraImm (v : Byte)
  | oraAbs (a : Addr)
  | oraIndY (z : Byte)
  | oraZpX (z : Byte)
  | oraAbsY (a : Addr)
  | oraAbsX (a : Addr)
  | eorIndX (z : Byte)
  | eorZp (z : Byte)
  | eorImm (v : Byte)
  | eorAbs (a : Addr)
  | eorIndY (z : Byte)
  | eorZpX (z : Byte)
  | eorAbsY (a : Addr)
  | eorAbsX (a : Addr)
  | bitZp (z : Byte)
  | bitAbs (a : Addr)
  | cmpIndX (z : Byte)
  | cmpZp (z : Byte)
  | cmpImm (v : Byte)
  | cmpAbs (a : Addr)
  | cmpIndY (z : Byte)
  | cmpZpX (z : Byte)
  | cmpAbsY (a : Addr)
  | cmpAbsX (a : Addr)
  | cpxImm (v : Byte)
  | cpxZp (z : Byte)
  | cpxAbs (a : Addr)
  | cpyImm (v : Byte)
  | cpyZp (z : Byte)
  | cpyAbs (a : Addr)
  | incZp (z : Byte)
  | incAbs (a : Addr)
  | incZpX (z : Byte)
  | incAbsX (a : Addr)
  | decZp (z : Byte)
  | decAbs (a : Addr)
  | decZpX (z : Byte)
  | decAbsX (a : Addr)
  | inx
  | iny
  | dex
  | dey
  | aslZp (z : Byte)
  | aslAcc
  | aslAbs (a : Addr)
  | aslZpX (z : Byte)
  | aslAbsX (a : Addr)
  | lsrZp (z : Byte)
  | lsrAcc
  | lsrAbs (a : Addr)
  | lsrZpX (z : Byte)
  | lsrAbsX (a : Addr)
  | rolZp (z : Byte)
  | rolAcc
  | rolAbs (a : Addr)
  | rolZpX (z : Byte)
  | rolAbsX (a : Addr)
  | rorZp (z : Byte)
  | rorAcc
  | rorAbs (a : Addr)
  | rorZpX (z : Byte)
  | rorAbsX (a : Addr)
  | bpl (o : Byte)
  | bmi (o : Byte)
  | bvc (o : Byte)
  | bvs (o : Byte)
  | bcc (o : Byte)
  | bcs (o : Byte)
  | bne (o : Byte)
  | beq (o : Byte)
  | jmpAbs (t : Addr)
  | jmpInd (ptr : Addr)
  | brk
  | rti
  | jsr (t : Addr)
  | rts
  | clc
  | cld
  | cli
  | clv
  | sec
  | sed
  | sei
  | nop
  | illegal (op : Byte)
  deriving DecidableEq, Repr

/-- The row's mnemonic (R108, R110). -/
def Instr.mnemonic : Instr → Mnemonic
  | .ldaIndX _ | .ldaZp _ | .ldaImm _ | .ldaAbs _ | .ldaIndY _ | .ldaZpX _ | .ldaAbsY _ | .ldaAbsX _ => .lda
  | .ldxImm _ | .ldxZp _ | .ldxAbs _ | .ldxZpY _ | .ldxAbsY _ => .ldx
  | .ldyImm _ | .ldyZp _ | .ldyAbs _ | .ldyZpX _ | .ldyAbsX _ => .ldy
  | .staIndX _ | .staZp _ | .staAbs _ | .staIndY _ | .staZpX _ | .staAbsY _ | .staAbsX _ => .sta
  | .stxZp _ | .stxAbs _ | .stxZpY _ => .stx
  | .styZp _ | .styAbs _ | .styZpX _ => .sty
  | .tax => .tax
  | .tay => .tay
  | .tsx => .tsx
  | .txa => .txa
  | .txs => .txs
  | .tya => .tya
  | .pha => .pha
  | .php => .php
  | .pla => .pla
  | .plp => .plp
  | .adcIndX _ | .adcZp _ | .adcImm _ | .adcAbs _ | .adcIndY _ | .adcZpX _ | .adcAbsY _ | .adcAbsX _ => .adc
  | .sbcIndX _ | .sbcZp _ | .sbcImm _ | .sbcAbs _ | .sbcIndY _ | .sbcZpX _ | .sbcAbsY _ | .sbcAbsX _ => .sbc
  | .andIndX _ | .andZp _ | .andImm _ | .andAbs _ | .andIndY _ | .andZpX _ | .andAbsY _ | .andAbsX _ => .and
  | .oraIndX _ | .oraZp _ | .oraImm _ | .oraAbs _ | .oraIndY _ | .oraZpX _ | .oraAbsY _ | .oraAbsX _ => .ora
  | .eorIndX _ | .eorZp _ | .eorImm _ | .eorAbs _ | .eorIndY _ | .eorZpX _ | .eorAbsY _ | .eorAbsX _ => .eor
  | .bitZp _ | .bitAbs _ => .bit
  | .cmpIndX _ | .cmpZp _ | .cmpImm _ | .cmpAbs _ | .cmpIndY _ | .cmpZpX _ | .cmpAbsY _ | .cmpAbsX _ => .cmp
  | .cpxImm _ | .cpxZp _ | .cpxAbs _ => .cpx
  | .cpyImm _ | .cpyZp _ | .cpyAbs _ => .cpy
  | .incZp _ | .incAbs _ | .incZpX _ | .incAbsX _ => .inc
  | .decZp _ | .decAbs _ | .decZpX _ | .decAbsX _ => .dec
  | .inx => .inx
  | .iny => .iny
  | .dex => .dex
  | .dey => .dey
  | .aslZp _ | .aslAcc | .aslAbs _ | .aslZpX _ | .aslAbsX _ => .asl
  | .lsrZp _ | .lsrAcc | .lsrAbs _ | .lsrZpX _ | .lsrAbsX _ => .lsr
  | .rolZp _ | .rolAcc | .rolAbs _ | .rolZpX _ | .rolAbsX _ => .rol
  | .rorZp _ | .rorAcc | .rorAbs _ | .rorZpX _ | .rorAbsX _ => .ror
  | .bpl _ => .bpl
  | .bmi _ => .bmi
  | .bvc _ => .bvc
  | .bvs _ => .bvs
  | .bcc _ => .bcc
  | .bcs _ => .bcs
  | .bne _ => .bne
  | .beq _ => .beq
  | .jmpAbs _ | .jmpInd _ => .jmp
  | .brk => .brk
  | .rti => .rti
  | .jsr _ => .jsr
  | .rts => .rts
  | .clc => .clc
  | .cld => .cld
  | .cli => .cli
  | .clv => .clv
  | .sec => .sec
  | .sed => .sed
  | .sei => .sei
  | .nop => .nop
  | .illegal _ => .illegal

/-- The row's operand. JMP indirect carries the Absolute tag, its pointer as the address (R28, R290). -/
def Instr.operand : Instr → Operand
  | .ldaIndX z => .memory (.indX z)
  | .ldaZp z => .memory (.zp z)
  | .ldaImm v => .immediate v
  | .ldaAbs a => .memory (.abs a)
  | .ldaIndY z => .memory (.indY z)
  | .ldaZpX z => .memory (.zpX z)
  | .ldaAbsY a => .memory (.absY a)
  | .ldaAbsX a => .memory (.absX a)
  | .ldxImm v => .immediate v
  | .ldxZp z => .memory (.zp z)
  | .ldxAbs a => .memory (.abs a)
  | .ldxZpY z => .memory (.zpY z)
  | .ldxAbsY a => .memory (.absY a)
  | .ldyImm v => .immediate v
  | .ldyZp z => .memory (.zp z)
  | .ldyAbs a => .memory (.abs a)
  | .ldyZpX z => .memory (.zpX z)
  | .ldyAbsX a => .memory (.absX a)
  | .staIndX z => .memory (.indX z)
  | .staZp z => .memory (.zp z)
  | .staAbs a => .memory (.abs a)
  | .staIndY z => .memory (.indY z)
  | .staZpX z => .memory (.zpX z)
  | .staAbsY a => .memory (.absY a)
  | .staAbsX a => .memory (.absX a)
  | .stxZp z => .memory (.zp z)
  | .stxAbs a => .memory (.abs a)
  | .stxZpY z => .memory (.zpY z)
  | .styZp z => .memory (.zp z)
  | .styAbs a => .memory (.abs a)
  | .styZpX z => .memory (.zpX z)
  | .tax => .implied
  | .tay => .implied
  | .tsx => .implied
  | .txa => .implied
  | .txs => .implied
  | .tya => .implied
  | .pha => .implied
  | .php => .implied
  | .pla => .implied
  | .plp => .implied
  | .adcIndX z => .memory (.indX z)
  | .adcZp z => .memory (.zp z)
  | .adcImm v => .immediate v
  | .adcAbs a => .memory (.abs a)
  | .adcIndY z => .memory (.indY z)
  | .adcZpX z => .memory (.zpX z)
  | .adcAbsY a => .memory (.absY a)
  | .adcAbsX a => .memory (.absX a)
  | .sbcIndX z => .memory (.indX z)
  | .sbcZp z => .memory (.zp z)
  | .sbcImm v => .immediate v
  | .sbcAbs a => .memory (.abs a)
  | .sbcIndY z => .memory (.indY z)
  | .sbcZpX z => .memory (.zpX z)
  | .sbcAbsY a => .memory (.absY a)
  | .sbcAbsX a => .memory (.absX a)
  | .andIndX z => .memory (.indX z)
  | .andZp z => .memory (.zp z)
  | .andImm v => .immediate v
  | .andAbs a => .memory (.abs a)
  | .andIndY z => .memory (.indY z)
  | .andZpX z => .memory (.zpX z)
  | .andAbsY a => .memory (.absY a)
  | .andAbsX a => .memory (.absX a)
  | .oraIndX z => .memory (.indX z)
  | .oraZp z => .memory (.zp z)
  | .oraImm v => .immediate v
  | .oraAbs a => .memory (.abs a)
  | .oraIndY z => .memory (.indY z)
  | .oraZpX z => .memory (.zpX z)
  | .oraAbsY a => .memory (.absY a)
  | .oraAbsX a => .memory (.absX a)
  | .eorIndX z => .memory (.indX z)
  | .eorZp z => .memory (.zp z)
  | .eorImm v => .immediate v
  | .eorAbs a => .memory (.abs a)
  | .eorIndY z => .memory (.indY z)
  | .eorZpX z => .memory (.zpX z)
  | .eorAbsY a => .memory (.absY a)
  | .eorAbsX a => .memory (.absX a)
  | .bitZp z => .memory (.zp z)
  | .bitAbs a => .memory (.abs a)
  | .cmpIndX z => .memory (.indX z)
  | .cmpZp z => .memory (.zp z)
  | .cmpImm v => .immediate v
  | .cmpAbs a => .memory (.abs a)
  | .cmpIndY z => .memory (.indY z)
  | .cmpZpX z => .memory (.zpX z)
  | .cmpAbsY a => .memory (.absY a)
  | .cmpAbsX a => .memory (.absX a)
  | .cpxImm v => .immediate v
  | .cpxZp z => .memory (.zp z)
  | .cpxAbs a => .memory (.abs a)
  | .cpyImm v => .immediate v
  | .cpyZp z => .memory (.zp z)
  | .cpyAbs a => .memory (.abs a)
  | .incZp z => .memory (.zp z)
  | .incAbs a => .memory (.abs a)
  | .incZpX z => .memory (.zpX z)
  | .incAbsX a => .memory (.absX a)
  | .decZp z => .memory (.zp z)
  | .decAbs a => .memory (.abs a)
  | .decZpX z => .memory (.zpX z)
  | .decAbsX a => .memory (.absX a)
  | .inx => .implied
  | .iny => .implied
  | .dex => .implied
  | .dey => .implied
  | .aslZp z => .memory (.zp z)
  | .aslAcc => .accumulator
  | .aslAbs a => .memory (.abs a)
  | .aslZpX z => .memory (.zpX z)
  | .aslAbsX a => .memory (.absX a)
  | .lsrZp z => .memory (.zp z)
  | .lsrAcc => .accumulator
  | .lsrAbs a => .memory (.abs a)
  | .lsrZpX z => .memory (.zpX z)
  | .lsrAbsX a => .memory (.absX a)
  | .rolZp z => .memory (.zp z)
  | .rolAcc => .accumulator
  | .rolAbs a => .memory (.abs a)
  | .rolZpX z => .memory (.zpX z)
  | .rolAbsX a => .memory (.absX a)
  | .rorZp z => .memory (.zp z)
  | .rorAcc => .accumulator
  | .rorAbs a => .memory (.abs a)
  | .rorZpX z => .memory (.zpX z)
  | .rorAbsX a => .memory (.absX a)
  | .bpl o => .relative o
  | .bmi o => .relative o
  | .bvc o => .relative o
  | .bvs o => .relative o
  | .bcc o => .relative o
  | .bcs o => .relative o
  | .bne o => .relative o
  | .beq o => .relative o
  | .jmpAbs t => .memory (.abs t)
  | .jmpInd ptr => .memory (.abs ptr)
  | .brk => .implied
  | .rti => .implied
  | .jsr t => .memory (.abs t)
  | .rts => .implied
  | .clc => .implied
  | .cld => .implied
  | .cli => .implied
  | .clv => .implied
  | .sec => .implied
  | .sed => .implied
  | .sei => .implied
  | .nop => .implied
  | .illegal _ => .implied

end Sys2Proof
end

