-- ==== Sys2Proof/Decode.lean ====
section
/-! DEFINITION. The opcode table (R29, R108), decoding (R107), encoding (R100 to R106), and the byte and word
helpers they share. -/

namespace Sys2Proof

/-- The word `(hi << 8) | lo` (R10, R106). -/
def word (lo hi : Byte) : Addr := hi ++ lo

/-- Bits 7 to 0 of a word (R10). -/
def loByte (a : Addr) : Byte := a.extractLsb' 0 8

/-- Bits 15 to 8 of a word (R10). -/
def hiByte (a : Addr) : Byte := a.extractLsb' 8 8

/-- One entry of the opcode table (R29). The length follows from the mode (R102) and the handler is exec's arm. -/
structure Descriptor where
  mnemonic : Mnemonic
  mode : AddrMode
  baseCycles : Nat
  pageCross : Bool
  deriving DecidableEq, Repr

/-- The total instruction length in bytes, the opcode included (R102). -/
def Descriptor.length (d : Descriptor) : Nat := 1 + d.mode.operandBytes

/-- The descriptor of each of the 105 illegal bytes: Implied, length 1, 2 cycles (R110, decision D16). -/
def Descriptor.illegal : Descriptor := ⟨.illegal, .implied, 2, false⟩

/-- The sixteen descriptors of opcodes 0x00 to 0x0F (R108). -/
def opcodeRow0 : List Descriptor := [
  ⟨.brk, .implied, 7, false⟩,  -- 0x00
  ⟨.ora, .indirectX, 6, false⟩,  -- 0x01
  .illegal,  -- 0x02
  .illegal,  -- 0x03
  .illegal,  -- 0x04
  ⟨.ora, .zeroPage, 3, false⟩,  -- 0x05
  ⟨.asl, .zeroPage, 5, false⟩,  -- 0x06
  .illegal,  -- 0x07
  ⟨.php, .implied, 3, false⟩,  -- 0x08
  ⟨.ora, .immediate, 2, false⟩,  -- 0x09
  ⟨.asl, .accumulator, 2, false⟩,  -- 0x0A
  .illegal,  -- 0x0B
  .illegal,  -- 0x0C
  ⟨.ora, .absolute, 4, false⟩,  -- 0x0D
  ⟨.asl, .absolute, 6, false⟩,  -- 0x0E
  .illegal]  -- 0x0F

/-- The sixteen descriptors of opcodes 0x10 to 0x1F (R108). -/
def opcodeRow1 : List Descriptor := [
  ⟨.bpl, .relative, 2, false⟩,  -- 0x10
  ⟨.ora, .indirectY, 5, true⟩,  -- 0x11
  .illegal,  -- 0x12
  .illegal,  -- 0x13
  .illegal,  -- 0x14
  ⟨.ora, .zeroPageX, 4, false⟩,  -- 0x15
  ⟨.asl, .zeroPageX, 6, false⟩,  -- 0x16
  .illegal,  -- 0x17
  ⟨.clc, .implied, 2, false⟩,  -- 0x18
  ⟨.ora, .absoluteY, 4, true⟩,  -- 0x19
  .illegal,  -- 0x1A
  .illegal,  -- 0x1B
  .illegal,  -- 0x1C
  ⟨.ora, .absoluteX, 4, true⟩,  -- 0x1D
  ⟨.asl, .absoluteX, 7, false⟩,  -- 0x1E
  .illegal]  -- 0x1F

/-- The sixteen descriptors of opcodes 0x20 to 0x2F (R108). -/
def opcodeRow2 : List Descriptor := [
  ⟨.jsr, .absolute, 6, false⟩,  -- 0x20
  ⟨.and, .indirectX, 6, false⟩,  -- 0x21
  .illegal,  -- 0x22
  .illegal,  -- 0x23
  ⟨.bit, .zeroPage, 3, false⟩,  -- 0x24
  ⟨.and, .zeroPage, 3, false⟩,  -- 0x25
  ⟨.rol, .zeroPage, 5, false⟩,  -- 0x26
  .illegal,  -- 0x27
  ⟨.plp, .implied, 4, false⟩,  -- 0x28
  ⟨.and, .immediate, 2, false⟩,  -- 0x29
  ⟨.rol, .accumulator, 2, false⟩,  -- 0x2A
  .illegal,  -- 0x2B
  ⟨.bit, .absolute, 4, false⟩,  -- 0x2C
  ⟨.and, .absolute, 4, false⟩,  -- 0x2D
  ⟨.rol, .absolute, 6, false⟩,  -- 0x2E
  .illegal]  -- 0x2F

/-- The sixteen descriptors of opcodes 0x30 to 0x3F (R108). -/
def opcodeRow3 : List Descriptor := [
  ⟨.bmi, .relative, 2, false⟩,  -- 0x30
  ⟨.and, .indirectY, 5, true⟩,  -- 0x31
  .illegal,  -- 0x32
  .illegal,  -- 0x33
  .illegal,  -- 0x34
  ⟨.and, .zeroPageX, 4, false⟩,  -- 0x35
  ⟨.rol, .zeroPageX, 6, false⟩,  -- 0x36
  .illegal,  -- 0x37
  ⟨.sec, .implied, 2, false⟩,  -- 0x38
  ⟨.and, .absoluteY, 4, true⟩,  -- 0x39
  .illegal,  -- 0x3A
  .illegal,  -- 0x3B
  .illegal,  -- 0x3C
  ⟨.and, .absoluteX, 4, true⟩,  -- 0x3D
  ⟨.rol, .absoluteX, 7, false⟩,  -- 0x3E
  .illegal]  -- 0x3F

/-- The sixteen descriptors of opcodes 0x40 to 0x4F (R108). -/
def opcodeRow4 : List Descriptor := [
  ⟨.rti, .implied, 6, false⟩,  -- 0x40
  ⟨.eor, .indirectX, 6, false⟩,  -- 0x41
  .illegal,  -- 0x42
  .illegal,  -- 0x43
  .illegal,  -- 0x44
  ⟨.eor, .zeroPage, 3, false⟩,  -- 0x45
  ⟨.lsr, .zeroPage, 5, false⟩,  -- 0x46
  .illegal,  -- 0x47
  ⟨.pha, .implied, 3, false⟩,  -- 0x48
  ⟨.eor, .immediate, 2, false⟩,  -- 0x49
  ⟨.lsr, .accumulator, 2, false⟩,  -- 0x4A
  .illegal,  -- 0x4B
  ⟨.jmp, .absolute, 3, false⟩,  -- 0x4C
  ⟨.eor, .absolute, 4, false⟩,  -- 0x4D
  ⟨.lsr, .absolute, 6, false⟩,  -- 0x4E
  .illegal]  -- 0x4F

/-- The sixteen descriptors of opcodes 0x50 to 0x5F (R108). -/
def opcodeRow5 : List Descriptor := [
  ⟨.bvc, .relative, 2, false⟩,  -- 0x50
  ⟨.eor, .indirectY, 5, true⟩,  -- 0x51
  .illegal,  -- 0x52
  .illegal,  -- 0x53
  .illegal,  -- 0x54
  ⟨.eor, .zeroPageX, 4, false⟩,  -- 0x55
  ⟨.lsr, .zeroPageX, 6, false⟩,  -- 0x56
  .illegal,  -- 0x57
  ⟨.cli, .implied, 2, false⟩,  -- 0x58
  ⟨.eor, .absoluteY, 4, true⟩,  -- 0x59
  .illegal,  -- 0x5A
  .illegal,  -- 0x5B
  .illegal,  -- 0x5C
  ⟨.eor, .absoluteX, 4, true⟩,  -- 0x5D
  ⟨.lsr, .absoluteX, 7, false⟩,  -- 0x5E
  .illegal]  -- 0x5F

/-- The sixteen descriptors of opcodes 0x60 to 0x6F (R108). -/
def opcodeRow6 : List Descriptor := [
  ⟨.rts, .implied, 6, false⟩,  -- 0x60
  ⟨.adc, .indirectX, 6, false⟩,  -- 0x61
  .illegal,  -- 0x62
  .illegal,  -- 0x63
  .illegal,  -- 0x64
  ⟨.adc, .zeroPage, 3, false⟩,  -- 0x65
  ⟨.ror, .zeroPage, 5, false⟩,  -- 0x66
  .illegal,  -- 0x67
  ⟨.pla, .implied, 4, false⟩,  -- 0x68
  ⟨.adc, .immediate, 2, false⟩,  -- 0x69
  ⟨.ror, .accumulator, 2, false⟩,  -- 0x6A
  .illegal,  -- 0x6B
  ⟨.jmp, .absolute, 5, false⟩,  -- 0x6C
  ⟨.adc, .absolute, 4, false⟩,  -- 0x6D
  ⟨.ror, .absolute, 6, false⟩,  -- 0x6E
  .illegal]  -- 0x6F

/-- The sixteen descriptors of opcodes 0x70 to 0x7F (R108). -/
def opcodeRow7 : List Descriptor := [
  ⟨.bvs, .relative, 2, false⟩,  -- 0x70
  ⟨.adc, .indirectY, 5, true⟩,  -- 0x71
  .illegal,  -- 0x72
  .illegal,  -- 0x73
  .illegal,  -- 0x74
  ⟨.adc, .zeroPageX, 4, false⟩,  -- 0x75
  ⟨.ror, .zeroPageX, 6, false⟩,  -- 0x76
  .illegal,  -- 0x77
  ⟨.sei, .implied, 2, false⟩,  -- 0x78
  ⟨.adc, .absoluteY, 4, true⟩,  -- 0x79
  .illegal,  -- 0x7A
  .illegal,  -- 0x7B
  .illegal,  -- 0x7C
  ⟨.adc, .absoluteX, 4, true⟩,  -- 0x7D
  ⟨.ror, .absoluteX, 7, false⟩,  -- 0x7E
  .illegal]  -- 0x7F

/-- The sixteen descriptors of opcodes 0x80 to 0x8F (R108). -/
def opcodeRow8 : List Descriptor := [
  .illegal,  -- 0x80
  ⟨.sta, .indirectX, 6, false⟩,  -- 0x81
  .illegal,  -- 0x82
  .illegal,  -- 0x83
  ⟨.sty, .zeroPage, 3, false⟩,  -- 0x84
  ⟨.sta, .zeroPage, 3, false⟩,  -- 0x85
  ⟨.stx, .zeroPage, 3, false⟩,  -- 0x86
  .illegal,  -- 0x87
  ⟨.dey, .implied, 2, false⟩,  -- 0x88
  .illegal,  -- 0x89
  ⟨.txa, .implied, 2, false⟩,  -- 0x8A
  .illegal,  -- 0x8B
  ⟨.sty, .absolute, 4, false⟩,  -- 0x8C
  ⟨.sta, .absolute, 4, false⟩,  -- 0x8D
  ⟨.stx, .absolute, 4, false⟩,  -- 0x8E
  .illegal]  -- 0x8F

/-- The sixteen descriptors of opcodes 0x90 to 0x9F (R108). -/
def opcodeRow9 : List Descriptor := [
  ⟨.bcc, .relative, 2, false⟩,  -- 0x90
  ⟨.sta, .indirectY, 6, false⟩,  -- 0x91
  .illegal,  -- 0x92
  .illegal,  -- 0x93
  ⟨.sty, .zeroPageX, 4, false⟩,  -- 0x94
  ⟨.sta, .zeroPageX, 4, false⟩,  -- 0x95
  ⟨.stx, .zeroPageY, 4, false⟩,  -- 0x96
  .illegal,  -- 0x97
  ⟨.tya, .implied, 2, false⟩,  -- 0x98
  ⟨.sta, .absoluteY, 5, false⟩,  -- 0x99
  ⟨.txs, .implied, 2, false⟩,  -- 0x9A
  .illegal,  -- 0x9B
  .illegal,  -- 0x9C
  ⟨.sta, .absoluteX, 5, false⟩,  -- 0x9D
  .illegal,  -- 0x9E
  .illegal]  -- 0x9F

/-- The sixteen descriptors of opcodes 0xA0 to 0xAF (R108). -/
def opcodeRowA : List Descriptor := [
  ⟨.ldy, .immediate, 2, false⟩,  -- 0xA0
  ⟨.lda, .indirectX, 6, false⟩,  -- 0xA1
  ⟨.ldx, .immediate, 2, false⟩,  -- 0xA2
  .illegal,  -- 0xA3
  ⟨.ldy, .zeroPage, 3, false⟩,  -- 0xA4
  ⟨.lda, .zeroPage, 3, false⟩,  -- 0xA5
  ⟨.ldx, .zeroPage, 3, false⟩,  -- 0xA6
  .illegal,  -- 0xA7
  ⟨.tay, .implied, 2, false⟩,  -- 0xA8
  ⟨.lda, .immediate, 2, false⟩,  -- 0xA9
  ⟨.tax, .implied, 2, false⟩,  -- 0xAA
  .illegal,  -- 0xAB
  ⟨.ldy, .absolute, 4, false⟩,  -- 0xAC
  ⟨.lda, .absolute, 4, false⟩,  -- 0xAD
  ⟨.ldx, .absolute, 4, false⟩,  -- 0xAE
  .illegal]  -- 0xAF

/-- The sixteen descriptors of opcodes 0xB0 to 0xBF (R108). -/
def opcodeRowB : List Descriptor := [
  ⟨.bcs, .relative, 2, false⟩,  -- 0xB0
  ⟨.lda, .indirectY, 5, true⟩,  -- 0xB1
  .illegal,  -- 0xB2
  .illegal,  -- 0xB3
  ⟨.ldy, .zeroPageX, 4, false⟩,  -- 0xB4
  ⟨.lda, .zeroPageX, 4, false⟩,  -- 0xB5
  ⟨.ldx, .zeroPageY, 4, false⟩,  -- 0xB6
  .illegal,  -- 0xB7
  ⟨.clv, .implied, 2, false⟩,  -- 0xB8
  ⟨.lda, .absoluteY, 4, true⟩,  -- 0xB9
  ⟨.tsx, .implied, 2, false⟩,  -- 0xBA
  .illegal,  -- 0xBB
  ⟨.ldy, .absoluteX, 4, true⟩,  -- 0xBC
  ⟨.lda, .absoluteX, 4, true⟩,  -- 0xBD
  ⟨.ldx, .absoluteY, 4, true⟩,  -- 0xBE
  .illegal]  -- 0xBF

/-- The sixteen descriptors of opcodes 0xC0 to 0xCF (R108). -/
def opcodeRowC : List Descriptor := [
  ⟨.cpy, .immediate, 2, false⟩,  -- 0xC0
  ⟨.cmp, .indirectX, 6, false⟩,  -- 0xC1
  .illegal,  -- 0xC2
  .illegal,  -- 0xC3
  ⟨.cpy, .zeroPage, 3, false⟩,  -- 0xC4
  ⟨.cmp, .zeroPage, 3, false⟩,  -- 0xC5
  ⟨.dec, .zeroPage, 5, false⟩,  -- 0xC6
  .illegal,  -- 0xC7
  ⟨.iny, .implied, 2, false⟩,  -- 0xC8
  ⟨.cmp, .immediate, 2, false⟩,  -- 0xC9
  ⟨.dex, .implied, 2, false⟩,  -- 0xCA
  .illegal,  -- 0xCB
  ⟨.cpy, .absolute, 4, false⟩,  -- 0xCC
  ⟨.cmp, .absolute, 4, false⟩,  -- 0xCD
  ⟨.dec, .absolute, 6, false⟩,  -- 0xCE
  .illegal]  -- 0xCF

/-- The sixteen descriptors of opcodes 0xD0 to 0xDF (R108). -/
def opcodeRowD : List Descriptor := [
  ⟨.bne, .relative, 2, false⟩,  -- 0xD0
  ⟨.cmp, .indirectY, 5, true⟩,  -- 0xD1
  .illegal,  -- 0xD2
  .illegal,  -- 0xD3
  .illegal,  -- 0xD4
  ⟨.cmp, .zeroPageX, 4, false⟩,  -- 0xD5
  ⟨.dec, .zeroPageX, 6, false⟩,  -- 0xD6
  .illegal,  -- 0xD7
  ⟨.cld, .implied, 2, false⟩,  -- 0xD8
  ⟨.cmp, .absoluteY, 4, true⟩,  -- 0xD9
  .illegal,  -- 0xDA
  .illegal,  -- 0xDB
  .illegal,  -- 0xDC
  ⟨.cmp, .absoluteX, 4, true⟩,  -- 0xDD
  ⟨.dec, .absoluteX, 7, false⟩,  -- 0xDE
  .illegal]  -- 0xDF

/-- The sixteen descriptors of opcodes 0xE0 to 0xEF (R108). -/
def opcodeRowE : List Descriptor := [
  ⟨.cpx, .immediate, 2, false⟩,  -- 0xE0
  ⟨.sbc, .indirectX, 6, false⟩,  -- 0xE1
  .illegal,  -- 0xE2
  .illegal,  -- 0xE3
  ⟨.cpx, .zeroPage, 3, false⟩,  -- 0xE4
  ⟨.sbc, .zeroPage, 3, false⟩,  -- 0xE5
  ⟨.inc, .zeroPage, 5, false⟩,  -- 0xE6
  .illegal,  -- 0xE7
  ⟨.inx, .implied, 2, false⟩,  -- 0xE8
  ⟨.sbc, .immediate, 2, false⟩,  -- 0xE9
  ⟨.nop, .implied, 2, false⟩,  -- 0xEA
  .illegal,  -- 0xEB
  ⟨.cpx, .absolute, 4, false⟩,  -- 0xEC
  ⟨.sbc, .absolute, 4, false⟩,  -- 0xED
  ⟨.inc, .absolute, 6, false⟩,  -- 0xEE
  .illegal]  -- 0xEF

/-- The sixteen descriptors of opcodes 0xF0 to 0xFF (R108). -/
def opcodeRowF : List Descriptor := [
  ⟨.beq, .relative, 2, false⟩,  -- 0xF0
  ⟨.sbc, .indirectY, 5, true⟩,  -- 0xF1
  .illegal,  -- 0xF2
  .illegal,  -- 0xF3
  .illegal,  -- 0xF4
  ⟨.sbc, .zeroPageX, 4, false⟩,  -- 0xF5
  ⟨.inc, .zeroPageX, 6, false⟩,  -- 0xF6
  .illegal,  -- 0xF7
  ⟨.sed, .implied, 2, false⟩,  -- 0xF8
  ⟨.sbc, .absoluteY, 4, true⟩,  -- 0xF9
  .illegal,  -- 0xFA
  .illegal,  -- 0xFB
  .illegal,  -- 0xFC
  ⟨.sbc, .absoluteX, 4, true⟩,  -- 0xFD
  ⟨.inc, .absoluteX, 7, false⟩,  -- 0xFE
  .illegal]  -- 0xFF

/-- The opcode table: 256 descriptors, in the order of their byte (R29, R108). -/
def opcodeTable : List Descriptor :=
  opcodeRow0 ++ opcodeRow1 ++ opcodeRow2 ++ opcodeRow3 ++ opcodeRow4 ++ opcodeRow5 ++ opcodeRow6 ++ opcodeRow7 ++
  opcodeRow8 ++ opcodeRow9 ++ opcodeRowA ++ opcodeRowB ++ opcodeRowC ++ opcodeRowD ++ opcodeRowE ++ opcodeRowF

/-- `OpcodeTable[op]` (R132). -/
def descriptor (op : Byte) : Descriptor := opcodeTable.getD op.toNat .illegal

/-- The instructions of opcodes 0x00 to 0x0F, by the low nibble (R108). -/
def instrRow0 (op b1 b2 : Byte) : Instr :=
  match op.toNat % 16 with
  | 0x0 => .brk
  | 0x1 => .oraIndX b1
  | 0x5 => .oraZp b1
  | 0x6 => .aslZp b1
  | 0x8 => .php
  | 0x9 => .oraImm b1
  | 0xA => .aslAcc
  | 0xD => .oraAbs (word b1 b2)
  | 0xE => .aslAbs (word b1 b2)
  | _ => .illegal op

/-- The instructions of opcodes 0x10 to 0x1F, by the low nibble (R108). -/
def instrRow1 (op b1 b2 : Byte) : Instr :=
  match op.toNat % 16 with
  | 0x0 => .bpl b1
  | 0x1 => .oraIndY b1
  | 0x5 => .oraZpX b1
  | 0x6 => .aslZpX b1
  | 0x8 => .clc
  | 0x9 => .oraAbsY (word b1 b2)
  | 0xD => .oraAbsX (word b1 b2)
  | 0xE => .aslAbsX (word b1 b2)
  | _ => .illegal op

/-- The instructions of opcodes 0x20 to 0x2F, by the low nibble (R108). -/
def instrRow2 (op b1 b2 : Byte) : Instr :=
  match op.toNat % 16 with
  | 0x0 => .jsr (word b1 b2)
  | 0x1 => .andIndX b1
  | 0x4 => .bitZp b1
  | 0x5 => .andZp b1
  | 0x6 => .rolZp b1
  | 0x8 => .plp
  | 0x9 => .andImm b1
  | 0xA => .rolAcc
  | 0xC => .bitAbs (word b1 b2)
  | 0xD => .andAbs (word b1 b2)
  | 0xE => .rolAbs (word b1 b2)
  | _ => .illegal op

/-- The instructions of opcodes 0x30 to 0x3F, by the low nibble (R108). -/
def instrRow3 (op b1 b2 : Byte) : Instr :=
  match op.toNat % 16 with
  | 0x0 => .bmi b1
  | 0x1 => .andIndY b1
  | 0x5 => .andZpX b1
  | 0x6 => .rolZpX b1
  | 0x8 => .sec
  | 0x9 => .andAbsY (word b1 b2)
  | 0xD => .andAbsX (word b1 b2)
  | 0xE => .rolAbsX (word b1 b2)
  | _ => .illegal op

/-- The instructions of opcodes 0x40 to 0x4F, by the low nibble (R108). -/
def instrRow4 (op b1 b2 : Byte) : Instr :=
  match op.toNat % 16 with
  | 0x0 => .rti
  | 0x1 => .eorIndX b1
  | 0x5 => .eorZp b1
  | 0x6 => .lsrZp b1
  | 0x8 => .pha
  | 0x9 => .eorImm b1
  | 0xA => .lsrAcc
  | 0xC => .jmpAbs (word b1 b2)
  | 0xD => .eorAbs (word b1 b2)
  | 0xE => .lsrAbs (word b1 b2)
  | _ => .illegal op

/-- The instructions of opcodes 0x50 to 0x5F, by the low nibble (R108). -/
def instrRow5 (op b1 b2 : Byte) : Instr :=
  match op.toNat % 16 with
  | 0x0 => .bvc b1
  | 0x1 => .eorIndY b1
  | 0x5 => .eorZpX b1
  | 0x6 => .lsrZpX b1
  | 0x8 => .cli
  | 0x9 => .eorAbsY (word b1 b2)
  | 0xD => .eorAbsX (word b1 b2)
  | 0xE => .lsrAbsX (word b1 b2)
  | _ => .illegal op

/-- The instructions of opcodes 0x60 to 0x6F, by the low nibble (R108). -/
def instrRow6 (op b1 b2 : Byte) : Instr :=
  match op.toNat % 16 with
  | 0x0 => .rts
  | 0x1 => .adcIndX b1
  | 0x5 => .adcZp b1
  | 0x6 => .rorZp b1
  | 0x8 => .pla
  | 0x9 => .adcImm b1
  | 0xA => .rorAcc
  | 0xC => .jmpInd (word b1 b2)
  | 0xD => .adcAbs (word b1 b2)
  | 0xE => .rorAbs (word b1 b2)
  | _ => .illegal op

/-- The instructions of opcodes 0x70 to 0x7F, by the low nibble (R108). -/
def instrRow7 (op b1 b2 : Byte) : Instr :=
  match op.toNat % 16 with
  | 0x0 => .bvs b1
  | 0x1 => .adcIndY b1
  | 0x5 => .adcZpX b1
  | 0x6 => .rorZpX b1
  | 0x8 => .sei
  | 0x9 => .adcAbsY (word b1 b2)
  | 0xD => .adcAbsX (word b1 b2)
  | 0xE => .rorAbsX (word b1 b2)
  | _ => .illegal op

/-- The instructions of opcodes 0x80 to 0x8F, by the low nibble (R108). -/
def instrRow8 (op b1 b2 : Byte) : Instr :=
  match op.toNat % 16 with
  | 0x1 => .staIndX b1
  | 0x4 => .styZp b1
  | 0x5 => .staZp b1
  | 0x6 => .stxZp b1
  | 0x8 => .dey
  | 0xA => .txa
  | 0xC => .styAbs (word b1 b2)
  | 0xD => .staAbs (word b1 b2)
  | 0xE => .stxAbs (word b1 b2)
  | _ => .illegal op

/-- The instructions of opcodes 0x90 to 0x9F, by the low nibble (R108). -/
def instrRow9 (op b1 b2 : Byte) : Instr :=
  match op.toNat % 16 with
  | 0x0 => .bcc b1
  | 0x1 => .staIndY b1
  | 0x4 => .styZpX b1
  | 0x5 => .staZpX b1
  | 0x6 => .stxZpY b1
  | 0x8 => .tya
  | 0x9 => .staAbsY (word b1 b2)
  | 0xA => .txs
  | 0xD => .staAbsX (word b1 b2)
  | _ => .illegal op

/-- The instructions of opcodes 0xA0 to 0xAF, by the low nibble (R108). -/
def instrRowA (op b1 b2 : Byte) : Instr :=
  match op.toNat % 16 with
  | 0x0 => .ldyImm b1
  | 0x1 => .ldaIndX b1
  | 0x2 => .ldxImm b1
  | 0x4 => .ldyZp b1
  | 0x5 => .ldaZp b1
  | 0x6 => .ldxZp b1
  | 0x8 => .tay
  | 0x9 => .ldaImm b1
  | 0xA => .tax
  | 0xC => .ldyAbs (word b1 b2)
  | 0xD => .ldaAbs (word b1 b2)
  | 0xE => .ldxAbs (word b1 b2)
  | _ => .illegal op

/-- The instructions of opcodes 0xB0 to 0xBF, by the low nibble (R108). -/
def instrRowB (op b1 b2 : Byte) : Instr :=
  match op.toNat % 16 with
  | 0x0 => .bcs b1
  | 0x1 => .ldaIndY b1
  | 0x4 => .ldyZpX b1
  | 0x5 => .ldaZpX b1
  | 0x6 => .ldxZpY b1
  | 0x8 => .clv
  | 0x9 => .ldaAbsY (word b1 b2)
  | 0xA => .tsx
  | 0xC => .ldyAbsX (word b1 b2)
  | 0xD => .ldaAbsX (word b1 b2)
  | 0xE => .ldxAbsY (word b1 b2)
  | _ => .illegal op

/-- The instructions of opcodes 0xC0 to 0xCF, by the low nibble (R108). -/
def instrRowC (op b1 b2 : Byte) : Instr :=
  match op.toNat % 16 with
  | 0x0 => .cpyImm b1
  | 0x1 => .cmpIndX b1
  | 0x4 => .cpyZp b1
  | 0x5 => .cmpZp b1
  | 0x6 => .decZp b1
  | 0x8 => .iny
  | 0x9 => .cmpImm b1
  | 0xA => .dex
  | 0xC => .cpyAbs (word b1 b2)
  | 0xD => .cmpAbs (word b1 b2)
  | 0xE => .decAbs (word b1 b2)
  | _ => .illegal op

/-- The instructions of opcodes 0xD0 to 0xDF, by the low nibble (R108). -/
def instrRowD (op b1 b2 : Byte) : Instr :=
  match op.toNat % 16 with
  | 0x0 => .bne b1
  | 0x1 => .cmpIndY b1
  | 0x5 => .cmpZpX b1
  | 0x6 => .decZpX b1
  | 0x8 => .cld
  | 0x9 => .cmpAbsY (word b1 b2)
  | 0xD => .cmpAbsX (word b1 b2)
  | 0xE => .decAbsX (word b1 b2)
  | _ => .illegal op

/-- The instructions of opcodes 0xE0 to 0xEF, by the low nibble (R108). -/
def instrRowE (op b1 b2 : Byte) : Instr :=
  match op.toNat % 16 with
  | 0x0 => .cpxImm b1
  | 0x1 => .sbcIndX b1
  | 0x4 => .cpxZp b1
  | 0x5 => .sbcZp b1
  | 0x6 => .incZp b1
  | 0x8 => .inx
  | 0x9 => .sbcImm b1
  | 0xA => .nop
  | 0xC => .cpxAbs (word b1 b2)
  | 0xD => .sbcAbs (word b1 b2)
  | 0xE => .incAbs (word b1 b2)
  | _ => .illegal op

/-- The instructions of opcodes 0xF0 to 0xFF, by the low nibble (R108). -/
def instrRowF (op b1 b2 : Byte) : Instr :=
  match op.toNat % 16 with
  | 0x0 => .beq b1
  | 0x1 => .sbcIndY b1
  | 0x5 => .sbcZpX b1
  | 0x6 => .incZpX b1
  | 0x8 => .sed
  | 0x9 => .sbcAbsY (word b1 b2)
  | 0xD => .sbcAbsX (word b1 b2)
  | 0xE => .incAbsX (word b1 b2)
  | _ => .illegal op

/-- The instruction of opcode byte `op` with operand bytes `b1` and `b2`; a byte the form does not have is not
used (R107, R108). -/
def instrOf (op b1 b2 : Byte) : Instr :=
  match op.toNat / 16 with
  | 0x0 => instrRow0 op b1 b2
  | 0x1 => instrRow1 op b1 b2
  | 0x2 => instrRow2 op b1 b2
  | 0x3 => instrRow3 op b1 b2
  | 0x4 => instrRow4 op b1 b2
  | 0x5 => instrRow5 op b1 b2
  | 0x6 => instrRow6 op b1 b2
  | 0x7 => instrRow7 op b1 b2
  | 0x8 => instrRow8 op b1 b2
  | 0x9 => instrRow9 op b1 b2
  | 0xA => instrRowA op b1 b2
  | 0xB => instrRowB op b1 b2
  | 0xC => instrRowC op b1 b2
  | 0xD => instrRowD op b1 b2
  | 0xE => instrRowE op b1 b2
  | _ => instrRowF op b1 b2

/-- Why a string of bytes does not begin with a whole instruction. -/
inductive DecodeError where
  | noOpcode
  | operandMissing
  deriving DecidableEq, Repr

/-- Read one instruction from the front of `bytes` and answer it with the bytes that follow (R107). Every opcode
byte has a row, so only a string that ends too early is rejected. -/
def decode : List Byte → Except DecodeError (Instr × List Byte)
  | [] => .error .noOpcode
  | op :: rest =>
    match (descriptor op).mode.operandBytes, rest with
    | 0, _ => .ok (instrOf op 0 0, rest)
    | 1, b1 :: rest => .ok (instrOf op b1 0, rest)
    | 2, b1 :: b2 :: rest => .ok (instrOf op b1 b2, rest)
    | _, _ => .error .operandMissing

/-- The instruction whose bits, numbered as the opcode table numbers them, are `w`: the first byte is bits 7 to
0, the second bits 15 to 8, the third bits 23 to 16, and every bit from `nbits` up is 0 (R100). -/
def tableBytes (nbits w : Nat) : List Byte :=
  let v := w % 2 ^ nbits
  [BitVec.ofNat 8 v, BitVec.ofNat 8 (v / 256), BitVec.ofNat 8 (v / 65536)]

/-- What the decoder reads from the bytes of a table word. -/
def decodeTableWord (nbits w : Nat) : Option Instr :=
  match decode (tableBytes nbits w) with
  | .ok (i, _) => some i
  | .error _ => none

/-- The opcode byte of an instruction (R108, and the encoding tables of R171 to R317). -/
def opcode : Instr → Byte
  | .ldaIndX _ => 0xA1
  | .ldaZp _ => 0xA5
  | .ldaImm _ => 0xA9
  | .ldaAbs _ => 0xAD
  | .ldaIndY _ => 0xB1
  | .ldaZpX _ => 0xB5
  | .ldaAbsY _ => 0xB9
  | .ldaAbsX _ => 0xBD
  | .ldxImm _ => 0xA2
  | .ldxZp _ => 0xA6
  | .ldxAbs _ => 0xAE
  | .ldxZpY _ => 0xB6
  | .ldxAbsY _ => 0xBE
  | .ldyImm _ => 0xA0
  | .ldyZp _ => 0xA4
  | .ldyAbs _ => 0xAC
  | .ldyZpX _ => 0xB4
  | .ldyAbsX _ => 0xBC
  | .staIndX _ => 0x81
  | .staZp _ => 0x85
  | .staAbs _ => 0x8D
  | .staIndY _ => 0x91
  | .staZpX _ => 0x95
  | .staAbsY _ => 0x99
  | .staAbsX _ => 0x9D
  | .stxZp _ => 0x86
  | .stxAbs _ => 0x8E
  | .stxZpY _ => 0x96
  | .styZp _ => 0x84
  | .styAbs _ => 0x8C
  | .styZpX _ => 0x94
  | .tax => 0xAA
  | .tay => 0xA8
  | .tsx => 0xBA
  | .txa => 0x8A
  | .txs => 0x9A
  | .tya => 0x98
  | .pha => 0x48
  | .php => 0x08
  | .pla => 0x68
  | .plp => 0x28
  | .adcIndX _ => 0x61
  | .adcZp _ => 0x65
  | .adcImm _ => 0x69
  | .adcAbs _ => 0x6D
  | .adcIndY _ => 0x71
  | .adcZpX _ => 0x75
  | .adcAbsY _ => 0x79
  | .adcAbsX _ => 0x7D
  | .sbcIndX _ => 0xE1
  | .sbcZp _ => 0xE5
  | .sbcImm _ => 0xE9
  | .sbcAbs _ => 0xED
  | .sbcIndY _ => 0xF1
  | .sbcZpX _ => 0xF5
  | .sbcAbsY _ => 0xF9
  | .sbcAbsX _ => 0xFD
  | .andIndX _ => 0x21
  | .andZp _ => 0x25
  | .andImm _ => 0x29
  | .andAbs _ => 0x2D
  | .andIndY _ => 0x31
  | .andZpX _ => 0x35
  | .andAbsY _ => 0x39
  | .andAbsX _ => 0x3D
  | .oraIndX _ => 0x01
  | .oraZp _ => 0x05
  | .oraImm _ => 0x09
  | .oraAbs _ => 0x0D
  | .oraIndY _ => 0x11
  | .oraZpX _ => 0x15
  | .oraAbsY _ => 0x19
  | .oraAbsX _ => 0x1D
  | .eorIndX _ => 0x41
  | .eorZp _ => 0x45
  | .eorImm _ => 0x49
  | .eorAbs _ => 0x4D
  | .eorIndY _ => 0x51
  | .eorZpX _ => 0x55
  | .eorAbsY _ => 0x59
  | .eorAbsX _ => 0x5D
  | .bitZp _ => 0x24
  | .bitAbs _ => 0x2C
  | .cmpIndX _ => 0xC1
  | .cmpZp _ => 0xC5
  | .cmpImm _ => 0xC9
  | .cmpAbs _ => 0xCD
  | .cmpIndY _ => 0xD1
  | .cmpZpX _ => 0xD5
  | .cmpAbsY _ => 0xD9
  | .cmpAbsX _ => 0xDD
  | .cpxImm _ => 0xE0
  | .cpxZp _ => 0xE4
  | .cpxAbs _ => 0xEC
  | .cpyImm _ => 0xC0
  | .cpyZp _ => 0xC4
  | .cpyAbs _ => 0xCC
  | .incZp _ => 0xE6
  | .incAbs _ => 0xEE
  | .incZpX _ => 0xF6
  | .incAbsX _ => 0xFE
  | .decZp _ => 0xC6
  | .decAbs _ => 0xCE
  | .decZpX _ => 0xD6
  | .decAbsX _ => 0xDE
  | .inx => 0xE8
  | .iny => 0xC8
  | .dex => 0xCA
  | .dey => 0x88
  | .aslZp _ => 0x06
  | .aslAcc => 0x0A
  | .aslAbs _ => 0x0E
  | .aslZpX _ => 0x16
  | .aslAbsX _ => 0x1E
  | .lsrZp _ => 0x46
  | .lsrAcc => 0x4A
  | .lsrAbs _ => 0x4E
  | .lsrZpX _ => 0x56
  | .lsrAbsX _ => 0x5E
  | .rolZp _ => 0x26
  | .rolAcc => 0x2A
  | .rolAbs _ => 0x2E
  | .rolZpX _ => 0x36
  | .rolAbsX _ => 0x3E
  | .rorZp _ => 0x66
  | .rorAcc => 0x6A
  | .rorAbs _ => 0x6E
  | .rorZpX _ => 0x76
  | .rorAbsX _ => 0x7E
  | .bpl _ => 0x10
  | .bmi _ => 0x30
  | .bvc _ => 0x50
  | .bvs _ => 0x70
  | .bcc _ => 0x90
  | .bcs _ => 0xB0
  | .bne _ => 0xD0
  | .beq _ => 0xF0
  | .jmpAbs _ => 0x4C
  | .jmpInd _ => 0x6C
  | .brk => 0x00
  | .rti => 0x40
  | .jsr _ => 0x20
  | .rts => 0x60
  | .clc => 0x18
  | .cld => 0xD8
  | .cli => 0x58
  | .clv => 0xB8
  | .sec => 0x38
  | .sed => 0xF8
  | .sei => 0x78
  | .nop => 0xEA
  | .illegal op => op

/-- The operand bytes of an operand, low byte of an address first (R101, R106). -/
def Operand.bytes : Operand → List Byte
  | .implied | .accumulator => []
  | .immediate v => [v]
  | .relative o => [o]
  | .memory (.zp z) | .memory (.zpX z) | .memory (.zpY z) | .memory (.indX z) | .memory (.indY z) => [z]
  | .memory (.abs a) | .memory (.absX a) | .memory (.absY a) => [loByte a, hiByte a]

/-- The bytes of an instruction: the opcode, then the operand bytes (R100). -/
def encode (i : Instr) : List Byte := opcode i :: i.operand.bytes

end Sys2Proof
end

