-- ==== Sys2Proof/Machine/State.lean ====
section
/-! DEFINITION. The state of the block as plain data (10_state.md), its stops, and the state after reset. -/

namespace Sys2Proof.Machine

/-- The engine state (R30). -/
inductive RunState where
  | ready
  | halted
  deriving DecidableEq, Repr

/-- The mirroring mode of a cartridge image (R33, R90). -/
inductive Mirroring where
  | horizontal
  | vertical
  | fourScreen
  deriving DecidableEq, Repr

/-- A byte store: (index, byte) cells with strictly rising indices, none holding the byte an unlisted index reads
as (`Config.unlisted`). `Store.wf` states the form. -/
abbrev Store := List Host.Cell

/-- A byte sequence of a known length: the cells that are not listed hold `Config.unlisted`. -/
structure ByteSeq where
  size : Nat
  cells : Store
  deriving DecidableEq, Repr

/-- The parser's output (R33). -/
structure CartridgeImage where
  prgRom : ByteSeq
  chrRom : ByteSeq
  trainer : Nat
  mapperId : Byte
  mirroring : Mirroring
  deriving DecidableEq, Repr

/-- The stores of the MemoryBus (R31). `prg` is the image's program ROM and is held there, once
(notes/assumptions/7.md). -/
structure Bus where
  ram : Store
  ppuStub : Store
  ioStub : Store
  image : CartridgeImage
  deriving DecidableEq, Repr

/-- The program ROM of the bus (R31, R32). -/
abbrev Bus.prg (b : Bus) : ByteSeq := b.image.prgRom

/-- The condition of a step result (R156, R330). -/
inductive Condition where
  | unimplementedOpcode (op : Byte) (addr : Addr)
  deriving DecidableEq, Repr

/-- What a step returns: `(cycles, cond)` (R156). -/
structure StepResult where
  cycles : Nat
  cond : Option Condition
  deriving DecidableEq, Repr

/-- A diagnostic event of the output trace (R158). -/
inductive Diagnostic where
  | openBusRead (addr : Addr)
  | romWrite (addr : Addr)
  | unmappedWrite (addr : Addr)
  | unimplementedOpcode (op : Byte) (addr : Addr)
  deriving DecidableEq, Repr

/-- Everything the spec gives the machine (R20, R24, R30, R31, R33) and its two outputs, the result of the last
step (R156) and the diagnostic trace, oldest first (R158), which nothing in the block reads
(notes/assumptions/3.md). -/
structure State where
  a : Byte
  x : Byte
  y : Byte
  sp : Byte
  p : Byte
  pc : Addr
  run : RunState
  bus : Bus
  result : Option StepResult
  trace : List Diagnostic
  deriving DecidableEq, Repr

/-- The reasons a step stops. -/
inductive Fault where
  /-- Raised by `step` in the engine state Halted, which has no transition until `reset()` (R152). Safe: the model
  makes no progress where the block makes none (notes/assumptions/4.md). -/
  | halted
  deriving DecidableEq, Repr

/-- The reasons an instruction is refused. -/
inductive Refusal where
  /-- Raised by an arm of `exec` whose instruction has no meaning yet. No arm raises it. Safe. -/
  | notModelled (mnemonic : String)
  deriving DecidableEq, Repr

/-- What an instruction or a step answers. -/
abbrev Answer := Host.Outcome State Fault Refusal

/-- DESIGN CHOICE (notes/assumptions/2.md), unsafe. The cartridge in `State.reset`: one program block in which no
byte is listed, no graphics block, no trainer, mapper 0, horizontal mirroring. -/
def CartridgeImage.blank : CartridgeImage :=
  { prgRom := ⟨Config.prgUnit, []⟩, chrRom := ⟨0, []⟩, trainer := 0, mapperId := 0x00, mirroring := .horizontal }

/-- The bus with the blank cartridge and nothing listed in any store. -/
def Bus.blank : Bus := { ram := [], ppuStub := [], ioStub := [], image := .blank }

/-- The machine right after `reset()` (R36, R360): A, X, Y, SP and P at the values of R360, `run` Ready, and PC the
word at the reset vector, which is 0x0000 because the blank cartridge reads 0x00 there (R366,
notes/assumptions/2.md). -/
def State.reset : State :=
  { a := 0x00, x := 0x00, y := 0x00, sp := Config.resetSp, p := 0x00, pc := 0x0000, run := .ready
    bus := .blank, result := none, trace := [] }

end Sys2Proof.Machine
end

