-- ==== Sys2Proof/Machine/Flags.lean ====
section
/-! DEFINITION. The status register's flags (R24 to R27) and every flag computation: pure functions of P. -/

namespace Sys2Proof.Machine

/-- The flags of P, in the order of their bits (R25, decision D1). -/
inductive Flag where
  | c | z | i | d | b | r | v | n
  deriving DecidableEq, Repr

/-- The bit position of a flag (R25). -/
def Flag.bit : Flag → Nat
  | .c => 0 | .z => 1 | .i => 2 | .d => 3 | .b => 4 | .r => 5 | .v => 6 | .n => 7

/-- The byte with only the flag's bit set (R25). -/
def Flag.mask (f : Flag) : Byte := 1#8 <<< f.bit

/-- Whether flag `f` is set in `p` (R24). -/
def getFlag (f : Flag) (p : Byte) : Bool := p.getLsbD f.bit

/-- `P.f <- b` (R11): the flag takes the value, every other bit of `p` stays. -/
def setFlag (f : Flag) (b : Bool) (p : Byte) : Byte := if b then p ||| f.mask else p &&& ~~~f.mask

/-- `SetZN(v)` (R14, R26): Z and N are cleared, then Z is set iff `v = 0` and N iff bit 7 of `v` is set. -/
def setZN (v : Byte) (p : Byte) : Byte :=
  let cleared := setFlag .n false (setFlag .z false p)
  setFlag .n (v.getLsbD 7) (setFlag .z (v == 0) cleared)

/-- The value 0 or 1 of the carry flag (R25). -/
def carryIn (p : Byte) : Nat := (getFlag .c p).toNat

/-- ADC on the accumulator `a`, the operand `m` and the status `p`: the result and the new status. The sum is exact
and narrowed at the end, whatever P.D holds (R220, R222). -/
def addWithCarry (a m p : Byte) : Byte × Byte :=
  let s := a.toNat + m.toNat + carryIn p
  let r := BitVec.ofNat 8 s
  let carry := decide (s > 0xFF)
  let overflow := ((a ^^^ r) &&& (m ^^^ r) &&& 0x80) != 0
  (r, setZN r (setFlag .v overflow (setFlag .c carry p)))

/-- SBC: the sum of `a` and the complement of `m` (R223). -/
def subtractWithBorrow (a m p : Byte) : Byte × Byte := addWithCarry a (m ^^^ 0xFF) p

/-- `Compare(r, m)`: the new status (R221). -/
def compareFlags (r m p : Byte) : Byte := setZN (r - m) (setFlag .c (decide (m.toNat ≤ r.toNat)) p)

/-- BIT: Z from `a & m`, N and V from bits 7 and 6 of `m` (R227). -/
def bitTest (a m p : Byte) : Byte :=
  setFlag .v (m.getLsbD 6) (setFlag .n (m.getLsbD 7) (setFlag .z ((a &&& m) == 0) p))

/-- INC: the result and the new status (R231). -/
def increment (m p : Byte) : Byte × Byte := (m + 1, setZN (m + 1) p)

/-- DEC: the result and the new status (R232). -/
def decrement (m p : Byte) : Byte × Byte := (m - 1, setZN (m - 1) p)

/-- ASL: the result and the new status (R261). -/
def shiftLeft (m p : Byte) : Byte × Byte :=
  let r := m <<< 1
  (r, setZN r (setFlag .c (m.getLsbD 7) p))

/-- LSR: the result and the new status (R262). -/
def shiftRight (m p : Byte) : Byte × Byte :=
  let r := m >>> 1
  (r, setZN r (setFlag .c (m.getLsbD 0) p))

/-- ROL: the old carry enters at bit 0 (R263). -/
def rotateLeft (m p : Byte) : Byte × Byte :=
  let r := (m <<< 1) ||| BitVec.ofNat 8 (carryIn p)
  (r, setZN r (setFlag .c (m.getLsbD 7) p))

/-- ROR: the old carry enters at bit 7 (R264). -/
def rotateRight (m p : Byte) : Byte × Byte :=
  let r := (m >>> 1) ||| (BitVec.ofNat 8 (carryIn p) <<< 7)
  (r, setZN r (setFlag .c (m.getLsbD 0) p))

end Sys2Proof.Machine
end

