-- ==== Sys2Proof/Machine/Memory.lean ====
section
/-! DEFINITION. The stores, the address decoder, and the bus's pure read and write (20_memory.md). -/

namespace Sys2Proof.Machine

/-- The byte at index `i` of a store. -/
def Store.read : Store → Nat → Byte
  | [], _ => Config.unlisted
  | (k, w) :: rest, i => if k = i then w else Store.read rest i

/-- The store with byte `v` at index `i`, in canonical form. -/
def Store.write : Store → Nat → Byte → Store
  | [], i, v => if v = Config.unlisted then [] else [(i, v)]
  | (k, w) :: rest, i, v =>
    if i < k then
      if v = Config.unlisted then (k, w) :: rest else (i, v) :: (k, w) :: rest
    else if i = k then
      if v = Config.unlisted then rest else (i, v) :: rest
    else (k, w) :: Store.write rest i v

/-- The cells are canonical, from index `lo` up to `size`: indices rise strictly and no cell holds the unlisted
byte. -/
def Store.wfFrom (lo size : Nat) : Store → Bool
  | [] => true
  | (k, w) :: rest => decide (lo ≤ k) && decide (k < size) && decide (w ≠ Config.unlisted) && Store.wfFrom (k + 1) size rest

/-- The canonical form of a store of `size` bytes. -/
def Store.wf (size : Nat) (st : Store) : Bool := Store.wfFrom 0 size st

/-- The canonical cells of the bytes `bs`, the first at index `k`. -/
def Store.ofList : Nat → List Byte → Store
  | _, [] => []
  | k, b :: bs => if b = Config.unlisted then Store.ofList (k + 1) bs else (k, b) :: Store.ofList (k + 1) bs

/-- A list of bytes as a byte sequence. -/
def ByteSeq.ofList (bs : List Byte) : ByteSeq := ⟨bs.length, Store.ofList 0 bs⟩

/-- The byte at index `i` of a byte sequence. -/
def ByteSeq.read (q : ByteSeq) (i : Nat) : Byte := Store.read q.cells i

/-- The canonical form of a byte sequence. -/
def ByteSeq.wf (q : ByteSeq) : Bool := Store.wf q.size q.cells

/-- What an address decodes to (R52). -/
inductive Target where
  | ram (i : Nat)
  | ppu (i : Nat)
  | io (i : Nat)
  | rom (i : Nat)
  | unmapped
  deriving DecidableEq, Repr

/-- `Decode(addr)` (R52), for a program ROM of `prgLen` bytes. -/
def decodeAddr (prgLen : Nat) (a : Addr) : Target :=
  if a.toNat ≤ 0x1FFF then .ram (a &&& 0x07FF).toNat
  else if a.toNat ≤ 0x3FFF then .ppu (a &&& 0x0007).toNat
  else if a.toNat ≤ 0x4017 then .io (a.toNat - 0x4000)
  else if a.toNat ≤ 0x7FFF then .unmapped
  else .rom ((a.toNat - 0x8000) % prgLen)

/-- The target of an address on this bus. -/
def Bus.target (b : Bus) (a : Addr) : Target := decodeAddr b.prg.size a

/-- The byte a bus read returns (R60). A read changes no bus state. -/
def Bus.read (b : Bus) (a : Addr) : Byte :=
  match b.target a with
  | .ram i => Store.read b.ram i
  | .ppu i => Store.read b.ppuStub i
  | .io i => Store.read b.ioStub i
  | .rom i => b.prg.read i
  | .unmapped => Config.openBus

/-- The bus after a bus write (R61): RAM and the stubs take the byte, ROM and Unmapped ignore it (R62, R63). -/
def Bus.write (b : Bus) (a : Addr) (v : Byte) : Bus :=
  match b.target a with
  | .ram i => { b with ram := Store.write b.ram i v }
  | .ppu i => { b with ppuStub := Store.write b.ppuStub i v }
  | .io i => { b with ioStub := Store.write b.ioStub i v }
  | .rom _ => b
  | .unmapped => b

/-- The diagnostics of a bus read (R60). -/
def Bus.readDiags (b : Bus) (a : Addr) : List Diagnostic :=
  match b.target a with
  | .unmapped => [.openBusRead a]
  | .ram _ | .ppu _ | .io _ | .rom _ => []

/-- The diagnostics of a bus write (R61 to R63). -/
def Bus.writeDiags (b : Bus) (a : Addr) : List Diagnostic :=
  match b.target a with
  | .rom _ => [.romWrite a]
  | .unmapped => [.unmappedWrite a]
  | .ram _ | .ppu _ | .io _ => []

/-- The trainer of an image is absent or whole (R33, R86), and its byte sequences are canonical. -/
def CartridgeImage.wf (c : CartridgeImage) : Bool :=
  c.prgRom.wf && c.chrRom.wf && (c.trainer == 0 || c.trainer == Config.trainerSize)

/-- The sizes of program ROM a bus is built with (R31, R74). -/
def prgSizeLegal (n : Nat) : Bool := n == Config.prgUnit || n == 2 * Config.prgUnit

/-- The bus's memory is in canonical form, and its program ROM has one of the two legal sizes (R31). -/
def Memory.wf (b : Bus) : Bool :=
  Store.wf Config.ramSize b.ram && Store.wf Config.ppuStubSize b.ppuStub && Store.wf Config.ioStubSize b.ioStub
    && b.image.wf && prgSizeLegal b.prg.size

end Sys2Proof.Machine
end

