-- ==== Sys2Proof/Machine/Ops.lean ====
section
/-! DEFINITION. The named operations over the state: register and bus access, the stack, the end of a step, and the
BRK entry with its return. -/

namespace Sys2Proof.Machine

/-- The general registers (R21). -/
inductive Reg where
  | a | x | y
  deriving DecidableEq, Repr

def State.setA (s : State) (v : Byte) : State := { s with a := v }
def State.setX (s : State) (v : Byte) : State := { s with x := v }
def State.setY (s : State) (v : Byte) : State := { s with y := v }
def State.setSp (s : State) (v : Byte) : State := { s with sp := v }
def State.setP (s : State) (v : Byte) : State := { s with p := v }
def State.setPc (s : State) (v : Addr) : State := { s with pc := v }
def State.setRun (s : State) (r : RunState) : State := { s with run := r }
def State.setBus (s : State) (b : Bus) : State := { s with bus := b }
def State.setResult (s : State) (r : Option StepResult) : State := { s with result := r }

/-- `diag`: append events to the output trace (R15, R158). -/
def State.log (s : State) (es : List Diagnostic) : State := { s with trace := s.trace ++ es }

/-- The value of a general register (R21). -/
def State.reg (s : State) : Reg → Byte
  | .a => s.a
  | .x => s.x
  | .y => s.y

/-- `R <- v` for a general register, no flag written (R11). -/
def State.setReg (s : State) (r : Reg) (v : Byte) : State :=
  match r with
  | .a => s.setA v
  | .x => s.setX v
  | .y => s.setY v

/-- `SetReg(R, v)`: Z and N are recomputed from `v`, then `v` goes to the register (R14, R27). -/
def State.setRegZN (s : State) (r : Reg) (v : Byte) : State := (s.setP (setZN v s.p)).setReg r v

/-- The byte of `MemRead(a, 1)` (R12, R60). -/
def State.memByte (s : State) (a : Addr) : Byte := s.bus.read a

/-- The state after `MemRead(a, 1)`: only a diagnostic may be appended (R60). -/
def State.afterRead (s : State) (a : Addr) : State := s.log (s.bus.readDiags a)

/-- The state after `MemWrite(a, 1, v)` (R12, R61). -/
def State.memWrite (s : State) (a : Addr) (v : Byte) : State := (s.setBus (s.bus.write a v)).log (s.bus.writeDiags a)

/-- The word of `Read16(a)`: the low byte at `a`, the high byte at `a + 1` mod 65536 (R12, R65). -/
def State.memWord (s : State) (a : Addr) : Addr := word (s.memByte a) (s.memByte (a + 1))

/-- The state after `Read16(a)`: low byte first (R12). -/
def State.afterReadWord (s : State) (a : Addr) : State := (s.afterRead a).afterRead (a + 1)

/-- The address of the stack byte that `sp` names (R22). -/
def stackAddr (sp : Byte) : Addr := Config.stackPage + sp.setWidth 16

/-- `Push(v)` (R13): write at `0x0100 + SP`, then SP down by one. -/
def State.push (s : State) (v : Byte) : State := (s.memWrite (stackAddr s.sp) v).setSp (s.sp - 1)

/-- The byte of `Pull()` (R13, R147): SP up by one, then the byte at `0x0100 + SP`. -/
def State.pulled (s : State) : Byte := s.memByte (stackAddr (s.sp + 1))

/-- The state after `Pull()` (R13, R147). -/
def State.afterPull (s : State) : State := (s.setSp (s.sp + 1)).afterRead (stackAddr (s.sp + 1))

/-- `page(a)` (R10). -/
def page (a : Addr) : Addr := a &&& 0xFF00

/-- The cycles of a step of opcode `op`: base cycles, the page-cross cycle where the descriptor carries the flag and
the resolver crossed, and the instruction's own penalty (R148, R153). -/
def cycleTotal (op : Byte) (crossed : Bool) (extra : Nat) : Nat :=
  (descriptor op).baseCycles + (if (descriptor op).pageCross && crossed then 1 else 0) + extra

/-- The end of a step that reports no condition (R130, R156). -/
def finish (op : Byte) (crossed : Bool) (extra : Nat) (s : State) : Answer :=
  .next (s.setResult (some ⟨cycleTotal op crossed extra, none⟩))

/-- The end of a step of an illegal byte: the condition is logged and reported with the byte and the address it was
fetched from, and nothing else changes (R150, R330). PC already stands after the byte. -/
def finishIllegal (op : Byte) (s : State) : Answer :=
  let addr0 := s.pc - 1
  .next ((s.log [.unimplementedOpcode op addr0]).setResult
    (some ⟨cycleTotal op false 0, some (.unimplementedOpcode op addr0)⟩))

/-- Push a word, high byte first (R65). -/
def State.pushWord (s : State) (w : Addr) : State := (s.push (hiByte w)).push (loByte w)

/-- The word two pulls give, low byte first (R293, R297). -/
def State.pulledWord (s : State) : Addr := word s.pulled s.afterPull.pulled

/-- The state after the two pulls of a word. -/
def State.afterPullWord (s : State) : State := s.afterPull.afterPull

/-- Entry through a vector (R292, R333, R334): push PC high, PC low and P as stored, set P.I, load PC from the vector
word. -/
def State.enterVector (s : State) (vector : Addr) : State :=
  let s1 := (s.pushWord s.pc).push s.p
  let s2 := s1.setP (setFlag .i true s1.p)
  (s2.afterReadWord vector).setPc (s2.memWord vector)

/-- Return from an entry (R293, R336): pull P, all eight bits, then PC low and high, with no + 1. -/
def State.leaveVector (s : State) : State :=
  let s1 := s.afterPull.setP s.pulled
  s1.afterPullWord.setPc s1.pulledWord

end Sys2Proof.Machine
end

