-- ==== Sys2Proof/Machine/Operands.lean ====
section
/-! DEFINITION. The addressing-mode resolver (R133 to R146) and the shared shapes of execution around it: read an
operand, store, read-modify-write, implied, branch (R130, R134). The operand bytes are already fetched and assembled
(notes/assumptions/8.md). -/

namespace Sys2Proof.Machine

/-- What the resolver reports for a memory mode: the effective address, the page-cross bit, and the state after the
pointer reads the mode makes (R133). -/
structure Resolved where
  ea : Addr
  crossed : Bool
  state : State
  deriving DecidableEq, Repr

/-- A zero-page byte as an address (R104). -/
def zeroPage (z : Byte) : Addr := z.setWidth 16

/-- `Read16zp(z)`: the high byte's address wraps inside the zero page (R12). -/
def State.zpWord (s : State) (z : Byte) : Addr := word (s.memByte (zeroPage z)) (s.memByte (zeroPage (z + 1)))

/-- The state after `Read16zp(z)`. -/
def State.afterZpWord (s : State) (z : Byte) : State := (s.afterRead (zeroPage z)).afterRead (zeroPage (z + 1))

/-- Index a 16-bit base by a register, with the page-cross bit (R143, R144, R146). -/
def indexed (base : Addr) (i : Byte) (s : State) : Resolved :=
  let ea := base + i.setWidth 16
  ⟨ea, page base != page ea, s⟩

/-- `Resolve(mode)` for the memory modes: R138 to R140 and R142 to R146. -/
def resolve (m : MemOperand) (s : State) : Resolved :=
  match m with
  | .zp z => ⟨zeroPage z, false, s⟩
  | .zpX z => ⟨zeroPage (z + s.x), false, s⟩
  | .zpY z => ⟨zeroPage (z + s.y), false, s⟩
  | .abs a => ⟨a, false, s⟩
  | .absX a => indexed a s.x s
  | .absY a => indexed a s.y s
  | .indX z => ⟨s.zpWord (z + s.x), false, s.afterZpWord (z + s.x)⟩
  | .indY z => indexed (s.zpWord z) s.y (s.afterZpWord z)

/-- What `Load` takes (R134): an immediate value or a memory operand. -/
inductive Source where
  | imm (v : Byte)
  | mem (m : MemOperand)
  deriving DecidableEq, Repr

/-- What a shift loads and stores (R134, R260): the accumulator or a memory operand. -/
inductive Place where
  | acc
  | mem (m : MemOperand)
  deriving DecidableEq, Repr

/-- The operand a source stands for (R134). -/
def Source.operand : Source → Operand
  | .imm v => .immediate v
  | .mem m => .memory m

/-- The operand a place stands for (R134). -/
def Place.operand : Place → Operand
  | .acc => .accumulator
  | .mem m => .memory m

/-- An instruction that loads its operand and acts on the value (R130, R134). -/
def execRead (op : Byte) (src : Source) (act : Byte → State → State) (s : State) : Answer :=
  match src with
  | .imm v => finish op false 0 (act v s)
  | .mem m =>
    let r := resolve m s
    finish op r.crossed 0 (act (r.state.memByte r.ea) (r.state.afterRead r.ea))

/-- An instruction that stores a register and makes no read of the effective address (R134, R174). -/
def execStore (op : Byte) (m : MemOperand) (src : Reg) (s : State) : Answer :=
  let r := resolve m s
  finish op r.crossed 0 (r.state.memWrite r.ea (r.state.reg src))

/-- An instruction that loads its operand once, computes a result and a new status, and stores once (R134, R155,
R260). -/
def execModify (op : Byte) (place : Place) (f : Byte → Byte → Byte × Byte) (s : State) : Answer :=
  match place with
  | .acc =>
    let out := f s.a s.p
    finish op false 0 ((s.setP out.2).setA out.1)
  | .mem m =>
    let r := resolve m s
    let out := f (r.state.memByte r.ea) r.state.p
    finish op r.crossed 0 (((r.state.afterRead r.ea).setP out.2).memWrite r.ea out.1)

/-- An instruction with no operand (R135). -/
def execImplied (op : Byte) (act : State → State) (s : State) : Answer := finish op false 0 (act s)

/-- The target of a branch with offset `o`, PC being the address after the branch (R105, R280). -/
def branchTarget (pc : Addr) (o : Byte) : Addr := pc + o.signExtend 16

/-- `Branch(cond, Offset(o))` (R280): one cycle if taken, one more if the target lies on another page than the
instruction after the branch. -/
def execBranch (op : Byte) (cond : Bool) (o : Byte) (s : State) : Answer :=
  if cond then
    let t := branchTarget s.pc o
    finish op false (1 + if page t != page s.pc then 1 else 0) (s.setPc t)
  else finish op false 0 s

end Sys2Proof.Machine
end

