-- ==== Sys2Proof/Machine/Arith.lean ====
section
/-! DEFINITION. Arithmetic, logic, compare, increment and decrement (43_arith_logic.md). -/

namespace Sys2Proof.Machine

/-- The action of ADC (R222). -/
def addToA (m : Byte) (s : State) : State :=
  let out := addWithCarry s.a m s.p
  (s.setP out.2).setA out.1

/-- The action of SBC (R223). -/
def subtractFromA (m : Byte) (s : State) : State :=
  let out := subtractWithBorrow s.a m s.p
  (s.setP out.2).setA out.1

/-- The action of AND (R224). -/
def andA (m : Byte) (s : State) : State := s.setRegZN .a (s.a &&& m)

/-- The action of ORA (R225). -/
def orA (m : Byte) (s : State) : State := s.setRegZN .a (s.a ||| m)

/-- The action of EOR (R226). -/
def exclusiveOrA (m : Byte) (s : State) : State := s.setRegZN .a (s.a ^^^ m)

/-- The action of BIT: flags only (R227). -/
def testBits (m : Byte) (s : State) : State := s.setP (bitTest s.a m s.p)

/-- The action of CMP, CPX and CPY: flags only (R228 to R230). -/
def compareReg (r : Reg) (m : Byte) (s : State) : State := s.setP (compareFlags (s.reg r) m s.p)

/-- The action of INX, INY, DEX and DEY: `SetReg(R, R + d)` with `d` 1 or -1 (R233 to R236). -/
def stepReg (r : Reg) (d : Byte) (s : State) : State := s.setRegZN r (s.reg r + d)

/-- `ADC ($nn,X)`, 0x61 (R222). -/
def execAdcIndX (z : Byte) (s : State) : Answer := execRead 0x61 (.mem (.indX z)) addToA s

/-- `ADC $nn`, 0x65 (R222). -/
def execAdcZp (z : Byte) (s : State) : Answer := execRead 0x65 (.mem (.zp z)) addToA s

/-- `ADC #$nn`, 0x69 (R222). -/
def execAdcImm (v : Byte) (s : State) : Answer := execRead 0x69 (.imm v) addToA s

/-- `ADC $nnnn`, 0x6D (R222). -/
def execAdcAbs (a : Addr) (s : State) : Answer := execRead 0x6D (.mem (.abs a)) addToA s

/-- `ADC ($nn),Y`, 0x71 (R222). -/
def execAdcIndY (z : Byte) (s : State) : Answer := execRead 0x71 (.mem (.indY z)) addToA s

/-- `ADC $nn,X`, 0x75 (R222). -/
def execAdcZpX (z : Byte) (s : State) : Answer := execRead 0x75 (.mem (.zpX z)) addToA s

/-- `ADC $nnnn,Y`, 0x79 (R222). -/
def execAdcAbsY (a : Addr) (s : State) : Answer := execRead 0x79 (.mem (.absY a)) addToA s

/-- `ADC $nnnn,X`, 0x7D (R222). -/
def execAdcAbsX (a : Addr) (s : State) : Answer := execRead 0x7D (.mem (.absX a)) addToA s

/-- `SBC ($nn,X)`, 0xE1 (R223). -/
def execSbcIndX (z : Byte) (s : State) : Answer := execRead 0xE1 (.mem (.indX z)) subtractFromA s

/-- `SBC $nn`, 0xE5 (R223). -/
def execSbcZp (z : Byte) (s : State) : Answer := execRead 0xE5 (.mem (.zp z)) subtractFromA s

/-- `SBC #$nn`, 0xE9 (R223). -/
def execSbcImm (v : Byte) (s : State) : Answer := execRead 0xE9 (.imm v) subtractFromA s

/-- `SBC $nnnn`, 0xED (R223). -/
def execSbcAbs (a : Addr) (s : State) : Answer := execRead 0xED (.mem (.abs a)) subtractFromA s

/-- `SBC ($nn),Y`, 0xF1 (R223). -/
def execSbcIndY (z : Byte) (s : State) : Answer := execRead 0xF1 (.mem (.indY z)) subtractFromA s

/-- `SBC $nn,X`, 0xF5 (R223). -/
def execSbcZpX (z : Byte) (s : State) : Answer := execRead 0xF5 (.mem (.zpX z)) subtractFromA s

/-- `SBC $nnnn,Y`, 0xF9 (R223). -/
def execSbcAbsY (a : Addr) (s : State) : Answer := execRead 0xF9 (.mem (.absY a)) subtractFromA s

/-- `SBC $nnnn,X`, 0xFD (R223). -/
def execSbcAbsX (a : Addr) (s : State) : Answer := execRead 0xFD (.mem (.absX a)) subtractFromA s

/-- `AND ($nn,X)`, 0x21 (R224). -/
def execAndIndX (z : Byte) (s : State) : Answer := execRead 0x21 (.mem (.indX z)) andA s

/-- `AND $nn`, 0x25 (R224). -/
def execAndZp (z : Byte) (s : State) : Answer := execRead 0x25 (.mem (.zp z)) andA s

/-- `AND #$nn`, 0x29 (R224). -/
def execAndImm (v : Byte) (s : State) : Answer := execRead 0x29 (.imm v) andA s

/-- `AND $nnnn`, 0x2D (R224). -/
def execAndAbs (a : Addr) (s : State) : Answer := execRead 0x2D (.mem (.abs a)) andA s

/-- `AND ($nn),Y`, 0x31 (R224). -/
def execAndIndY (z : Byte) (s : State) : Answer := execRead 0x31 (.mem (.indY z)) andA s

/-- `AND $nn,X`, 0x35 (R224). -/
def execAndZpX (z : Byte) (s : State) : Answer := execRead 0x35 (.mem (.zpX z)) andA s

/-- `AND $nnnn,Y`, 0x39 (R224). -/
def execAndAbsY (a : Addr) (s : State) : Answer := execRead 0x39 (.mem (.absY a)) andA s

/-- `AND $nnnn,X`, 0x3D (R224). -/
def execAndAbsX (a : Addr) (s : State) : Answer := execRead 0x3D (.mem (.absX a)) andA s

/-- `ORA ($nn,X)`, 0x01 (R225). -/
def execOraIndX (z : Byte) (s : State) : Answer := execRead 0x01 (.mem (.indX z)) orA s

/-- `ORA $nn`, 0x05 (R225). -/
def execOraZp (z : Byte) (s : State) : Answer := execRead 0x05 (.mem (.zp z)) orA s

/-- `ORA #$nn`, 0x09 (R225). -/
def execOraImm (v : Byte) (s : State) : Answer := execRead 0x09 (.imm v) orA s

/-- `ORA $nnnn`, 0x0D (R225). -/
def execOraAbs (a : Addr) (s : State) : Answer := execRead 0x0D (.mem (.abs a)) orA s

/-- `ORA ($nn),Y`, 0x11 (R225). -/
def execOraIndY (z : Byte) (s : State) : Answer := execRead 0x11 (.mem (.indY z)) orA s

/-- `ORA $nn,X`, 0x15 (R225). -/
def execOraZpX (z : Byte) (s : State) : Answer := execRead 0x15 (.mem (.zpX z)) orA s

/-- `ORA $nnnn,Y`, 0x19 (R225). -/
def execOraAbsY (a : Addr) (s : State) : Answer := execRead 0x19 (.mem (.absY a)) orA s

/-- `ORA $nnnn,X`, 0x1D (R225). -/
def execOraAbsX (a : Addr) (s : State) : Answer := execRead 0x1D (.mem (.absX a)) orA s

/-- `EOR ($nn,X)`, 0x41 (R226). -/
def execEorIndX (z : Byte) (s : State) : Answer := execRead 0x41 (.mem (.indX z)) exclusiveOrA s

/-- `EOR $nn`, 0x45 (R226). -/
def execEorZp (z : Byte) (s : State) : Answer := execRead 0x45 (.mem (.zp z)) exclusiveOrA s

/-- `EOR #$nn`, 0x49 (R226). -/
def execEorImm (v : Byte) (s : State) : Answer := execRead 0x49 (.imm v) exclusiveOrA s

/-- `EOR $nnnn`, 0x4D (R226). -/
def execEorAbs (a : Addr) (s : State) : Answer := execRead 0x4D (.mem (.abs a)) exclusiveOrA s

/-- `EOR ($nn),Y`, 0x51 (R226). -/
def execEorIndY (z : Byte) (s : State) : Answer := execRead 0x51 (.mem (.indY z)) exclusiveOrA s

/-- `EOR $nn,X`, 0x55 (R226). -/
def execEorZpX (z : Byte) (s : State) : Answer := execRead 0x55 (.mem (.zpX z)) exclusiveOrA s

/-- `EOR $nnnn,Y`, 0x59 (R226). -/
def execEorAbsY (a : Addr) (s : State) : Answer := execRead 0x59 (.mem (.absY a)) exclusiveOrA s

/-- `EOR $nnnn,X`, 0x5D (R226). -/
def execEorAbsX (a : Addr) (s : State) : Answer := execRead 0x5D (.mem (.absX a)) exclusiveOrA s

/-- `BIT $nn`, 0x24 (R227). -/
def execBitZp (z : Byte) (s : State) : Answer := execRead 0x24 (.mem (.zp z)) testBits s

/-- `BIT $nnnn`, 0x2C (R227). -/
def execBitAbs (a : Addr) (s : State) : Answer := execRead 0x2C (.mem (.abs a)) testBits s

/-- `CMP ($nn,X)`, 0xC1 (R228). -/
def execCmpIndX (z : Byte) (s : State) : Answer := execRead 0xC1 (.mem (.indX z)) (compareReg .a) s

/-- `CMP $nn`, 0xC5 (R228). -/
def execCmpZp (z : Byte) (s : State) : Answer := execRead 0xC5 (.mem (.zp z)) (compareReg .a) s

/-- `CMP #$nn`, 0xC9 (R228). -/
def execCmpImm (v : Byte) (s : State) : Answer := execRead 0xC9 (.imm v) (compareReg .a) s

/-- `CMP $nnnn`, 0xCD (R228). -/
def execCmpAbs (a : Addr) (s : State) : Answer := execRead 0xCD (.mem (.abs a)) (compareReg .a) s

/-- `CMP ($nn),Y`, 0xD1 (R228). -/
def execCmpIndY (z : Byte) (s : State) : Answer := execRead 0xD1 (.mem (.indY z)) (compareReg .a) s

/-- `CMP $nn,X`, 0xD5 (R228). -/
def execCmpZpX (z : Byte) (s : State) : Answer := execRead 0xD5 (.mem (.zpX z)) (compareReg .a) s

/-- `CMP $nnnn,Y`, 0xD9 (R228). -/
def execCmpAbsY (a : Addr) (s : State) : Answer := execRead 0xD9 (.mem (.absY a)) (compareReg .a) s

/-- `CMP $nnnn,X`, 0xDD (R228). -/
def execCmpAbsX (a : Addr) (s : State) : Answer := execRead 0xDD (.mem (.absX a)) (compareReg .a) s

/-- `CPX #$nn`, 0xE0 (R229). -/
def execCpxImm (v : Byte) (s : State) : Answer := execRead 0xE0 (.imm v) (compareReg .x) s

/-- `CPX $nn`, 0xE4 (R229). -/
def execCpxZp (z : Byte) (s : State) : Answer := execRead 0xE4 (.mem (.zp z)) (compareReg .x) s

/-- `CPX $nnnn`, 0xEC (R229). -/
def execCpxAbs (a : Addr) (s : State) : Answer := execRead 0xEC (.mem (.abs a)) (compareReg .x) s

/-- `CPY #$nn`, 0xC0 (R230). -/
def execCpyImm (v : Byte) (s : State) : Answer := execRead 0xC0 (.imm v) (compareReg .y) s

/-- `CPY $nn`, 0xC4 (R230). -/
def execCpyZp (z : Byte) (s : State) : Answer := execRead 0xC4 (.mem (.zp z)) (compareReg .y) s

/-- `CPY $nnnn`, 0xCC (R230). -/
def execCpyAbs (a : Addr) (s : State) : Answer := execRead 0xCC (.mem (.abs a)) (compareReg .y) s

/-- `INC $nn`, 0xE6 (R231). -/
def execIncZp (z : Byte) (s : State) : Answer := execModify 0xE6 (.mem (.zp z)) increment s

/-- `INC $nnnn`, 0xEE (R231). -/
def execIncAbs (a : Addr) (s : State) : Answer := execModify 0xEE (.mem (.abs a)) increment s

/-- `INC $nn,X`, 0xF6 (R231). -/
def execIncZpX (z : Byte) (s : State) : Answer := execModify 0xF6 (.mem (.zpX z)) increment s

/-- `INC $nnnn,X`, 0xFE (R231). -/
def execIncAbsX (a : Addr) (s : State) : Answer := execModify 0xFE (.mem (.absX a)) increment s

/-- `DEC $nn`, 0xC6 (R232). -/
def execDecZp (z : Byte) (s : State) : Answer := execModify 0xC6 (.mem (.zp z)) decrement s

/-- `DEC $nnnn`, 0xCE (R232). -/
def execDecAbs (a : Addr) (s : State) : Answer := execModify 0xCE (.mem (.abs a)) decrement s

/-- `DEC $nn,X`, 0xD6 (R232). -/
def execDecZpX (z : Byte) (s : State) : Answer := execModify 0xD6 (.mem (.zpX z)) decrement s

/-- `DEC $nnnn,X`, 0xDE (R232). -/
def execDecAbsX (a : Addr) (s : State) : Answer := execModify 0xDE (.mem (.absX a)) decrement s

/-- `INX`, 0xE8 (R233). -/
def execInx (s : State) : Answer := execImplied 0xE8 (stepReg .x 1) s

/-- `INY`, 0xC8 (R234). -/
def execIny (s : State) : Answer := execImplied 0xC8 (stepReg .y 1) s

/-- `DEX`, 0xCA (R235). -/
def execDex (s : State) : Answer := execImplied 0xCA (stepReg .x (-1)) s

/-- `DEY`, 0x88 (R236). -/
def execDey (s : State) : Answer := execImplied 0x88 (stepReg .y (-1)) s

end Sys2Proof.Machine
end

