-- ==== Sys2Proof/Machine/Control.lean ====
section
/-! DEFINITION. Branches, jumps, BRK and RTI, subroutines (45_control.md). -/

namespace Sys2Proof.Machine

/-- The address of a pointer's high byte: the next one in the same page (R290, decision D11). -/
def pointerHigh (ptr : Addr) : Addr := page ptr ||| ((ptr + 1) &&& 0x00FF)

/-- The word JMP indirect reads through its pointer (R290). -/
def State.pointerWord (s : State) (ptr : Addr) : Addr := word (s.memByte ptr) (s.memByte (pointerHigh ptr))

/-- The state after JMP indirect's two pointer reads (R290). -/
def State.afterPointer (s : State) (ptr : Addr) : State := (s.afterRead ptr).afterRead (pointerHigh ptr)

/-- The action of RTS: pull a word and go to the address after it (R297). -/
def returnFromSubroutine (s : State) : State := s.afterPullWord.setPc (s.pulledWord + 1)

/-- `BPL label`, 0x10 (R281). -/
def execBpl (o : Byte) (s : State) : Answer := execBranch 0x10 (!getFlag .n s.p) o s

/-- `BMI label`, 0x30 (R282). -/
def execBmi (o : Byte) (s : State) : Answer := execBranch 0x30 (getFlag .n s.p) o s

/-- `BVC label`, 0x50 (R283). -/
def execBvc (o : Byte) (s : State) : Answer := execBranch 0x50 (!getFlag .v s.p) o s

/-- `BVS label`, 0x70 (R284). -/
def execBvs (o : Byte) (s : State) : Answer := execBranch 0x70 (getFlag .v s.p) o s

/-- `BCC label`, 0x90 (R285). -/
def execBcc (o : Byte) (s : State) : Answer := execBranch 0x90 (!getFlag .c s.p) o s

/-- `BCS label`, 0xB0 (R286). -/
def execBcs (o : Byte) (s : State) : Answer := execBranch 0xB0 (getFlag .c s.p) o s

/-- `BNE label`, 0xD0 (R287). -/
def execBne (o : Byte) (s : State) : Answer := execBranch 0xD0 (!getFlag .z s.p) o s

/-- `BEQ label`, 0xF0 (R288). -/
def execBeq (o : Byte) (s : State) : Answer := execBranch 0xF0 (getFlag .z s.p) o s

/-- `JMP $nnnn`, 0x4C (R289). -/
def execJmpAbs (t : Addr) (s : State) : Answer := finish 0x4C false 0 (s.setPc t)

/-- `JMP ($nnnn)`, 0x6C (R290). -/
def execJmpInd (ptr : Addr) (s : State) : Answer := finish 0x6C false 0 ((s.afterPointer ptr).setPc (s.pointerWord ptr))

/-- `BRK`, 0x00 (R292). -/
def execBrk (s : State) : Answer := execImplied 0x00 (fun s => s.enterVector Config.brkVector) s

/-- `RTI`, 0x40 (R293). -/
def execRti (s : State) : Answer := execImplied 0x40 State.leaveVector s

/-- `JSR $nnnn`, 0x20 (R296). -/
def execJsr (t : Addr) (s : State) : Answer := finish 0x20 false 0 ((s.pushWord (s.pc - 1)).setPc t)

/-- `RTS`, 0x60 (R297). -/
def execRts (s : State) : Answer := execImplied 0x60 returnFromSubroutine s

end Sys2Proof.Machine
end

