-- ==== Sys2Proof/Machine/FlagOps.lean ====
section
/-! DEFINITION. Flag instructions and NOP (46_flag_misc.md). -/

namespace Sys2Proof.Machine

/-- The action of the flag instructions: `P.f <- b` (R310 to R316). -/
def writeFlag (f : Flag) (b : Bool) (s : State) : State := s.setP (setFlag f b s.p)

/-- `CLC`, 0x18 (R310). -/
def execClc (s : State) : Answer := execImplied 0x18 (writeFlag .c false) s

/-- `CLD`, 0xD8 (R311). -/
def execCld (s : State) : Answer := execImplied 0xD8 (writeFlag .d false) s

/-- `CLI`, 0x58 (R312). -/
def execCli (s : State) : Answer := execImplied 0x58 (writeFlag .i false) s

/-- `CLV`, 0xB8 (R313). -/
def execClv (s : State) : Answer := execImplied 0xB8 (writeFlag .v false) s

/-- `SEC`, 0x38 (R314). -/
def execSec (s : State) : Answer := execImplied 0x38 (writeFlag .c true) s

/-- `SED`, 0xF8 (R315). -/
def execSed (s : State) : Answer := execImplied 0xF8 (writeFlag .d true) s

/-- `SEI`, 0x78 (R316). -/
def execSei (s : State) : Answer := execImplied 0x78 (writeFlag .i true) s

/-- `NOP`, 0xEA (R317). -/
def execNop (s : State) : Answer := execImplied 0xEA id s

end Sys2Proof.Machine
end

