-- ==== Sys2Proof/Machine/Illegal.lean ====
section
/-! DEFINITION. The 105 illegal bytes (R110, R150, R151). -/

namespace Sys2Proof.Machine

/-- An illegal byte (R150): a recoverable 1-byte no-operation that reports `UnimplementedOpcode` (R330). -/
def execIllegal (op : Byte) (s : State) : Answer := finishIllegal op s

end Sys2Proof.Machine
end

