-- ==== Sys2Proof/Machine/LoadStore.lean ====
section
/-! DEFINITION. Loads, stores and register transfers (41_load_store_transfer.md). -/

namespace Sys2Proof.Machine

/-- The action of LDA, LDX and LDY: `SetReg(R, v)` (R171 to R173). -/
def loadReg (r : Reg) (v : Byte) (s : State) : State := s.setRegZN r v

/-- The action of TAX, TAY, TXA and TYA: `SetReg(to, from)` (R177, R178, R180, R182). -/
def transfer (src dst : Reg) (s : State) : State := s.setRegZN dst (s.reg src)

/-- `LDA ($nn,X)`, 0xA1 (R171). -/
def execLdaIndX (z : Byte) (s : State) : Answer := execRead 0xA1 (.mem (.indX z)) (loadReg .a) s

/-- `LDA $nn`, 0xA5 (R171). -/
def execLdaZp (z : Byte) (s : State) : Answer := execRead 0xA5 (.mem (.zp z)) (loadReg .a) s

/-- `LDA #$nn`, 0xA9 (R171). -/
def execLdaImm (v : Byte) (s : State) : Answer := execRead 0xA9 (.imm v) (loadReg .a) s

/-- `LDA $nnnn`, 0xAD (R171). -/
def execLdaAbs (a : Addr) (s : State) : Answer := execRead 0xAD (.mem (.abs a)) (loadReg .a) s

/-- `LDA ($nn),Y`, 0xB1 (R171). -/
def execLdaIndY (z : Byte) (s : State) : Answer := execRead 0xB1 (.mem (.indY z)) (loadReg .a) s

/-- `LDA $nn,X`, 0xB5 (R171). -/
def execLdaZpX (z : Byte) (s : State) : Answer := execRead 0xB5 (.mem (.zpX z)) (loadReg .a) s

/-- `LDA $nnnn,Y`, 0xB9 (R171). -/
def execLdaAbsY (a : Addr) (s : State) : Answer := execRead 0xB9 (.mem (.absY a)) (loadReg .a) s

/-- `LDA $nnnn,X`, 0xBD (R171). -/
def execLdaAbsX (a : Addr) (s : State) : Answer := execRead 0xBD (.mem (.absX a)) (loadReg .a) s

/-- `LDX #$nn`, 0xA2 (R172). -/
def execLdxImm (v : Byte) (s : State) : Answer := execRead 0xA2 (.imm v) (loadReg .x) s

/-- `LDX $nn`, 0xA6 (R172). -/
def execLdxZp (z : Byte) (s : State) : Answer := execRead 0xA6 (.mem (.zp z)) (loadReg .x) s

/-- `LDX $nnnn`, 0xAE (R172). -/
def execLdxAbs (a : Addr) (s : State) : Answer := execRead 0xAE (.mem (.abs a)) (loadReg .x) s

/-- `LDX $nn,Y`, 0xB6 (R172). -/
def execLdxZpY (z : Byte) (s : State) : Answer := execRead 0xB6 (.mem (.zpY z)) (loadReg .x) s

/-- `LDX $nnnn,Y`, 0xBE (R172). -/
def execLdxAbsY (a : Addr) (s : State) : Answer := execRead 0xBE (.mem (.absY a)) (loadReg .x) s

/-- `LDY #$nn`, 0xA0 (R173). -/
def execLdyImm (v : Byte) (s : State) : Answer := execRead 0xA0 (.imm v) (loadReg .y) s

/-- `LDY $nn`, 0xA4 (R173). -/
def execLdyZp (z : Byte) (s : State) : Answer := execRead 0xA4 (.mem (.zp z)) (loadReg .y) s

/-- `LDY $nnnn`, 0xAC (R173). -/
def execLdyAbs (a : Addr) (s : State) : Answer := execRead 0xAC (.mem (.abs a)) (loadReg .y) s

/-- `LDY $nn,X`, 0xB4 (R173). -/
def execLdyZpX (z : Byte) (s : State) : Answer := execRead 0xB4 (.mem (.zpX z)) (loadReg .y) s

/-- `LDY $nnnn,X`, 0xBC (R173). -/
def execLdyAbsX (a : Addr) (s : State) : Answer := execRead 0xBC (.mem (.absX a)) (loadReg .y) s

/-- `STA ($nn,X)`, 0x81 (R174). -/
def execStaIndX (z : Byte) (s : State) : Answer := execStore 0x81 (.indX z) .a s

/-- `STA $nn`, 0x85 (R174). -/
def execStaZp (z : Byte) (s : State) : Answer := execStore 0x85 (.zp z) .a s

/-- `STA $nnnn`, 0x8D (R174). -/
def execStaAbs (a : Addr) (s : State) : Answer := execStore 0x8D (.abs a) .a s

/-- `STA ($nn),Y`, 0x91 (R174). -/
def execStaIndY (z : Byte) (s : State) : Answer := execStore 0x91 (.indY z) .a s

/-- `STA $nn,X`, 0x95 (R174). -/
def execStaZpX (z : Byte) (s : State) : Answer := execStore 0x95 (.zpX z) .a s

/-- `STA $nnnn,Y`, 0x99 (R174). -/
def execStaAbsY (a : Addr) (s : State) : Answer := execStore 0x99 (.absY a) .a s

/-- `STA $nnnn,X`, 0x9D (R174). -/
def execStaAbsX (a : Addr) (s : State) : Answer := execStore 0x9D (.absX a) .a s

/-- `STX $nn`, 0x86 (R175). -/
def execStxZp (z : Byte) (s : State) : Answer := execStore 0x86 (.zp z) .x s

/-- `STX $nnnn`, 0x8E (R175). -/
def execStxAbs (a : Addr) (s : State) : Answer := execStore 0x8E (.abs a) .x s

/-- `STX $nn,Y`, 0x96 (R175). -/
def execStxZpY (z : Byte) (s : State) : Answer := execStore 0x96 (.zpY z) .x s

/-- `STY $nn`, 0x84 (R176). -/
def execStyZp (z : Byte) (s : State) : Answer := execStore 0x84 (.zp z) .y s

/-- `STY $nnnn`, 0x8C (R176). -/
def execStyAbs (a : Addr) (s : State) : Answer := execStore 0x8C (.abs a) .y s

/-- `STY $nn,X`, 0x94 (R176). -/
def execStyZpX (z : Byte) (s : State) : Answer := execStore 0x94 (.zpX z) .y s

/-- `TAX`, 0xAA (R177). -/
def execTax (s : State) : Answer := execImplied 0xAA (transfer .a .x) s

/-- `TAY`, 0xA8 (R178). -/
def execTay (s : State) : Answer := execImplied 0xA8 (transfer .a .y) s

/-- `TSX`, 0xBA (R179). -/
def execTsx (s : State) : Answer := execImplied 0xBA (fun s => s.setRegZN .x s.sp) s

/-- `TXA`, 0x8A (R180). -/
def execTxa (s : State) : Answer := execImplied 0x8A (transfer .x .a) s

/-- `TXS`, 0x9A (R181). -/
def execTxs (s : State) : Answer := execImplied 0x9A (fun s => s.setSp s.x) s

/-- `TYA`, 0x98 (R182). -/
def execTya (s : State) : Answer := execImplied 0x98 (transfer .y .a) s

end Sys2Proof.Machine
end

