-- ==== Sys2Proof/Machine/Shift.lean ====
section
/-! DEFINITION. Shifts and rotates (44_shift_rotate.md). -/

namespace Sys2Proof.Machine

/-- `ASL $nn`, 0x06 (R261). -/
def execAslZp (z : Byte) (s : State) : Answer := execModify 0x06 (.mem (.zp z)) shiftLeft s

/-- `ASL A`, 0x0A (R261). -/
def execAslAcc (s : State) : Answer := execModify 0x0A .acc shiftLeft s

/-- `ASL $nnnn`, 0x0E (R261). -/
def execAslAbs (a : Addr) (s : State) : Answer := execModify 0x0E (.mem (.abs a)) shiftLeft s

/-- `ASL $nn,X`, 0x16 (R261). -/
def execAslZpX (z : Byte) (s : State) : Answer := execModify 0x16 (.mem (.zpX z)) shiftLeft s

/-- `ASL $nnnn,X`, 0x1E (R261). -/
def execAslAbsX (a : Addr) (s : State) : Answer := execModify 0x1E (.mem (.absX a)) shiftLeft s

/-- `LSR $nn`, 0x46 (R262). -/
def execLsrZp (z : Byte) (s : State) : Answer := execModify 0x46 (.mem (.zp z)) shiftRight s

/-- `LSR A`, 0x4A (R262). -/
def execLsrAcc (s : State) : Answer := execModify 0x4A .acc shiftRight s

/-- `LSR $nnnn`, 0x4E (R262). -/
def execLsrAbs (a : Addr) (s : State) : Answer := execModify 0x4E (.mem (.abs a)) shiftRight s

/-- `LSR $nn,X`, 0x56 (R262). -/
def execLsrZpX (z : Byte) (s : State) : Answer := execModify 0x56 (.mem (.zpX z)) shiftRight s

/-- `LSR $nnnn,X`, 0x5E (R262). -/
def execLsrAbsX (a : Addr) (s : State) : Answer := execModify 0x5E (.mem (.absX a)) shiftRight s

/-- `ROL $nn`, 0x26 (R263). -/
def execRolZp (z : Byte) (s : State) : Answer := execModify 0x26 (.mem (.zp z)) rotateLeft s

/-- `ROL A`, 0x2A (R263). -/
def execRolAcc (s : State) : Answer := execModify 0x2A .acc rotateLeft s

/-- `ROL $nnnn`, 0x2E (R263). -/
def execRolAbs (a : Addr) (s : State) : Answer := execModify 0x2E (.mem (.abs a)) rotateLeft s

/-- `ROL $nn,X`, 0x36 (R263). -/
def execRolZpX (z : Byte) (s : State) : Answer := execModify 0x36 (.mem (.zpX z)) rotateLeft s

/-- `ROL $nnnn,X`, 0x3E (R263). -/
def execRolAbsX (a : Addr) (s : State) : Answer := execModify 0x3E (.mem (.absX a)) rotateLeft s

/-- `ROR $nn`, 0x66 (R264). -/
def execRorZp (z : Byte) (s : State) : Answer := execModify 0x66 (.mem (.zp z)) rotateRight s

/-- `ROR A`, 0x6A (R264). -/
def execRorAcc (s : State) : Answer := execModify 0x6A .acc rotateRight s

/-- `ROR $nnnn`, 0x6E (R264). -/
def execRorAbs (a : Addr) (s : State) : Answer := execModify 0x6E (.mem (.abs a)) rotateRight s

/-- `ROR $nn,X`, 0x76 (R264). -/
def execRorZpX (z : Byte) (s : State) : Answer := execModify 0x76 (.mem (.zpX z)) rotateRight s

/-- `ROR $nnnn,X`, 0x7E (R264). -/
def execRorAbsX (a : Addr) (s : State) : Answer := execModify 0x7E (.mem (.absX a)) rotateRight s

end Sys2Proof.Machine
end

