-- ==== Sys2Proof/Machine/Stack.lean ====
section
/-! DEFINITION. Stack instructions (42_stack.md). -/

namespace Sys2Proof.Machine

/-- `PHA`, 0x48 (R200). -/
def execPha (s : State) : Answer := execImplied 0x48 (fun s => s.push s.a) s

/-- `PHP`, 0x08 (R201). -/
def execPhp (s : State) : Answer := execImplied 0x08 (fun s => s.push s.p) s

/-- `PLA`, 0x68 (R202). -/
def execPla (s : State) : Answer := execImplied 0x68 (fun s => s.afterPull.setRegZN .a s.pulled) s

/-- `PLP`, 0x28 (R203). -/
def execPlp (s : State) : Answer := execImplied 0x28 (fun s => s.afterPull.setP s.pulled) s

end Sys2Proof.Machine
end

