-- ==== Sys2Proof/Machine/Fetch.lean ====
section
/-! DEFINITION. Fetching an instruction's bytes through the bus (R107, R130, R131), and placing one where the next
step fetches it. -/

namespace Sys2Proof.Machine

/-- The state after fetching the byte at PC: a diagnostic may be logged, and PC advances by one mod 65536 (R131,
R133). -/
def State.afterFetch (s : State) : State := (s.afterRead s.pc).setPc (s.pc + 1)

/-- The byte at PC. -/
def State.fetchByte (s : State) : Byte := s.memByte s.pc

/-- The state after fetching `n` bytes at PC, one after the other. -/
def State.afterFetches : Nat → State → State
  | 0, s => s
  | n + 1, s => State.afterFetches n s.afterFetch

/-- The instruction at PC: the opcode byte, then the operand bytes its descriptor asks for (R107, R130). -/
def State.fetchedInstr (s : State) : Instr :=
  let op := s.fetchByte
  let s1 := s.afterFetch
  match (descriptor op).mode.operandBytes with
  | 0 => instrOf op 0 0
  | 1 => instrOf op s1.fetchByte 0
  | _ => instrOf op s1.fetchByte s1.afterFetch.fetchByte

/-- The state in which the meaning runs: the bytes of the instruction, and no others, are fetched, and PC holds the
address of the byte after it (R130, R155). -/
def State.afterInstr (s : State) : State := State.afterFetches (descriptor s.fetchByte).length s

/-- The bus with byte `v` behind address `a` where a load of the machine from outside can put one: a RAM or stub byte
as a host write does (R345), a program-ROM byte as a cartridge with another image (R365). -/
def Bus.load (b : Bus) (a : Addr) (v : Byte) : Bus :=
  match b.target a with
  | .rom i =>
    { b with image := { b.image with prgRom := { b.prg with cells := Store.write b.prg.cells i v } } }
  | .ram _ | .ppu _ | .io _ | .unmapped => b.write a v

/-- Whether a byte can be placed behind address `a`. -/
def Bus.loadable (b : Bus) (a : Addr) : Bool := b.target a != .unmapped

/-- Where `State.placeWord` puts an instruction (notes/assumptions/5.md): PC, if none of the three addresses from PC
is Unmapped, else the first ROM address. -/
def State.placeAddr (s : State) : Addr :=
  if s.bus.loadable s.pc && s.bus.loadable (s.pc + 1) && s.bus.loadable (s.pc + 2) then s.pc else 0x8000

/-- The machine with the bytes of a table word loaded where the next step fetches, Ready to run it
(notes/assumptions/5.md). -/
def State.placeWord (s : State) (nbits w : Nat) : State :=
  let at0 := s.placeAddr
  let v := w % 2 ^ nbits
  let b0 := s.bus.load at0 (BitVec.ofNat 8 v)
  let b1 := b0.load (at0 + 1) (BitVec.ofNat 8 (v / 256))
  let b2 := b1.load (at0 + 2) (BitVec.ofNat 8 (v / 65536))
  ((s.setBus b2).setPc at0).setRun .ready

end Sys2Proof.Machine
end

