-- ==== Sys2Proof/Machine/Step.lean ====
section
/-! DEFINITION. The step (R130, R152). -/

namespace Sys2Proof.Machine

/-- `step()`: in Ready, fetch one instruction and run its meaning (R130); in Halted there is no transition (R152,
notes/assumptions/4.md). -/
def step (s : State) : Host.Outcome State Fault Refusal :=
  match s.run with
  | .ready => exec s.fetchedInstr s.afterInstr
  | .halted => .fault .halted

/-- `s` with the bytes of a table word where `step` fetches its next instruction (notes/assumptions/5.md). -/
def State.withFetchWord (s : State) (nbits w : Nat) : State := s.placeWord nbits w

end Sys2Proof.Machine
end

