-- ==== Sys2Proof/Machine/Cartridge.lean ====
section
/-! DEFINITION. The cartridge parser and the bus constructor (R74, R80 to R94). -/

namespace Sys2Proof.Machine

/-- Why an input has an invalid format (R331). -/
inductive FormatReason where
  | tooShort
  | badMagic
  | sizeMismatch
  | prgSize
  deriving DecidableEq, Repr

/-- The loader's error kinds that this block raises (R331). `FileAccess` belongs to the host's file step
(notes/assumptions/12.md). -/
inductive LoadError where
  | formatInvalid (reason : FormatReason)
  | rangeInvalid
  deriving DecidableEq, Repr

/-- The four bytes `N E S 0x1A` (R81). -/
def magic : List Byte := [0x4E, 0x45, 0x53, 0x1A]

/-- The bytes from index `start` on, `len` of them; a request that exceeds the buffer is `RangeInvalid` (R88). -/
def slice (bytes : List Byte) (start len : Nat) : Except LoadError (List Byte) :=
  if start + len ≤ bytes.length then .ok ((bytes.drop start).take len) else .error .rangeInvalid

/-- `validate(bytes)`: at least 16 bytes, then the magic signature (R82). -/
def validate (bytes : List Byte) : Except LoadError Unit :=
  if bytes.length < Config.headerSize then .error (.formatInvalid .tooShort)
  else if bytes.take 4 ≠ magic then .error (.formatInvalid .badMagic)
  else .ok ()

/-- `prg_size`, from header byte 4 (R83). -/
def prgSizeOf (bytes : List Byte) : Nat := Config.prgUnit * (bytes.getD 4 0).toNat

/-- `chr_size`, from header byte 5 (R83). -/
def chrSizeOf (bytes : List Byte) : Nat := Config.chrUnit * (bytes.getD 5 0).toNat

/-- The trainer's size, from bit 2 of header byte 6 (R84, R86). -/
def trainerOf (bytes : List Byte) : Nat := if (bytes.getD 6 0).getLsbD 2 then Config.trainerSize else 0

/-- The total length the header asks for (R87). -/
def expectedSize (bytes : List Byte) : Nat := Config.headerSize + trainerOf bytes + prgSizeOf bytes + chrSizeOf bytes

/-- The mapper id: `(flags7 & 0xF0) | (flags6 >> 4)` (R89). -/
def mapperIdOf (flags6 flags7 : Byte) : Byte := (flags7 &&& 0xF0) ||| (flags6 >>> 4)

/-- The mirroring mode (R90). -/
def mirroringOf (flags6 : Byte) : Mirroring :=
  if flags6.getLsbD 3 then .fourScreen else if flags6.getLsbD 0 then .vertical else .horizontal

/-- `parse(bytes)` (R91): length, magic, exact size, then the two slices. -/
def parse (bytes : List Byte) : Except LoadError CartridgeImage :=
  match validate bytes with
  | .error e => .error e
  | .ok () =>
    if bytes.length ≠ expectedSize bytes then .error (.formatInvalid .sizeMismatch)
    else
      let base := Config.headerSize + trainerOf bytes
      match slice bytes base (prgSizeOf bytes), slice bytes (base + prgSizeOf bytes) (chrSizeOf bytes) with
      | .ok prg, .ok chr =>
        .ok { prgRom := .ofList prg, chrRom := .ofList chr, trainer := trainerOf bytes
              mapperId := mapperIdOf (bytes.getD 6 0) (bytes.getD 7 0), mirroring := mirroringOf (bytes.getD 6 0) }
      | .error e, _ => .error e
      | _, .error e => .error e

/-- The OPEN initial contents of the mutable stores (R31, decisions D5 and D6). -/
structure PowerOn where
  ramInit : Fin Config.ramSize → Byte
  ppuStubInit : Fin Config.ppuStubSize → Byte
  ioStubInit : Fin Config.ioStubSize → Byte

/-- `MemoryBus.new(image)` (R74): only 16,384 or 32,768 bytes of program ROM make a bus. -/
def newBus (image : CartridgeImage) (init : PowerOn) : Except LoadError Bus :=
  if prgSizeLegal image.prgRom.size then
    .ok { ram := Store.ofList 0 (List.ofFn init.ramInit), ppuStub := Store.ofList 0 (List.ofFn init.ppuStubInit)
          ioStub := Store.ofList 0 (List.ofFn init.ioStubInit), image := image }
  else .error (.formatInvalid .prgSize)

end Sys2Proof.Machine
end

