-- ==== Sys2Proof/Machine/HostOps.lean ====
section
/-! DEFINITION. The driver's operations beside `step()` (R345): reset, abort, bus access between steps, and the boot
order (R365). -/

namespace Sys2Proof.Machine

/-- `reset()` (R360): the registers and P, then PC from the reset vector through the bus, then Ready. No bus address is
written (R361), and the host gets no result (R362). -/
def State.hostReset (s : State) : State :=
  let s1 := ((((s.setA 0x00).setX 0x00).setY 0x00).setSp Config.resetSp).setP 0x00
  (((s1.afterReadWord Config.resetVector).setPc (s1.memWord Config.resetVector)).setRun .ready).setResult none

/-- `abort()` (R342): `run <- Halted` and nothing else. -/
def State.hostAbort (s : State) : State := s.setRun .halted

/-- `MemRead(addr, 1)` by the host: the byte, and the state with the diagnostic the read logs (R344, R345). -/
def State.hostRead (s : State) (a : Addr) : Byte × State := (s.memByte a, s.afterRead a)

/-- `MemWrite(addr, 1, v)` by the host, under the rules of the engine's own writes (R345). -/
def State.hostWrite (s : State) (a : Addr) (v : Byte) : State := s.memWrite a v

/-- Boot (R365): parse, build the bus, reset. A load error gives no machine (R331). The registers before the reset are
overwritten by it, so the ones taken here do not matter (R364, decision D29). -/
def boot (bytes : List Byte) (init : PowerOn) : Except LoadError State :=
  match parse bytes with
  | .error e => .error e
  | .ok image =>
    match newBus image init with
    | .error e => .error e
    | .ok bus => .ok (State.reset.setBus bus).hostReset

end Sys2Proof.Machine
end

