-- ==== Sys2Proof/Safety.lean ====
section
/-! DEFINITION. The terms the claims use: the machine's invariant, what an instruction's operand gives, which
addresses it stores to, its penalties, and how a status byte differs from another. -/

namespace Sys2Proof.Machine

/-- The invariant of the machine: its memory is in canonical form, its program ROM has a legal size and its trainer
count is legal (R31, R33). Every other field may hold any value of its type. -/
def State.wf (s : State) : Bool := Memory.wf s.bus

/-- The machine can run `k` steps from `s` and is Ready after them. -/
def RunsFor (k : Nat) (s : State) : Prop := ∃ t, Sys2Proof.core.run k s = .next t ∧ t.run = .ready

/-- The effective address of a memory operand (R133), by the resolver the meanings use. -/
def effectiveAddr : Operand → State → Option Addr
  | .memory m, s => some (resolve m s).ea
  | .implied, _ | .accumulator, _ | .immediate _, _ | .relative _, _ => none

/-- The byte `Load` gives for an operand (R134). -/
def loadedByte : Operand → State → Option Byte
  | .immediate v, _ => some v
  | .accumulator, s => some s.a
  | .memory m, s => some (s.bus.read (resolve m s).ea)
  | .implied, _ | .relative _, _ => none

/-- The diagnostics of the `Load` of an operand (R60). -/
def loadDiags (o : Operand) (s : State) : List Diagnostic :=
  match effectiveAddr o s with
  | some ea => s.bus.readDiags ea
  | none => []

/-- The page-cross bit the resolver reports (R133). -/
def crosses : Operand → State → Bool
  | .memory m, s => (resolve m s).crossed
  | .implied, _ | .accumulator, _ | .immediate _, _ | .relative _, _ => false

/-- The result of a step of `i` with no penalty of its own and no condition (R153, R156). -/
def plainResult (i : Instr) (s : State) : Option StepResult := some ⟨cycleTotal (opcode i) (crosses i.operand s) 0, none⟩

/-- `s` with the result of a step of `i` reported: what NOP leaves. -/
def State.done (s : State) (i : Instr) : State := { s with result := plainResult i s }

/-- `s` with the operand of `i` loaded and the result reported: what an instruction that only loads leaves. -/
def State.loaded (s : State) (i : Instr) : State :=
  { s with result := plainResult i s, trace := s.trace ++ loadDiags i.operand s }

/-- The flags of `p'` are those of `p`, but for the listed ones, which have the listed values. -/
def FlagsAre (p' p : Byte) (new : List (Flag × Bool)) : Prop := ∀ f, getFlag f p' = (new.lookup f).getD (getFlag f p)

/-- Z and N as `SetZN(v)` gives them (R26). -/
def znOf (v : Byte) : List (Flag × Bool) := [(.z, v == 0), (.n, v.getLsbD 7)]

/-- `i` completes, loading one byte `m`, storing `result m` back to the operand (A or the effective address) and
giving the flags `flags m (result m)` their values; nothing else changes but the outputs (R134, R155, R260). -/
def Modifies (i : Instr) (s : State) (result : Byte → Byte) (flags : Byte → Byte → List (Flag × Bool)) : Prop :=
  ∃ m p', loadedByte i.operand s = some m ∧ FlagsAre p' s.p (flags m (result m)) ∧
    ((i.operand = .accumulator ∧ exec i s = .next { s.done i with a := result m, p := p' }) ∨
      ∃ ea, effectiveAddr i.operand s = some ea ∧
        exec i s = .next { s.loaded i with
          p := p', bus := s.bus.write ea (result m), trace := s.trace ++ s.bus.readDiags ea ++ s.bus.writeDiags ea })

/-- Whether a branch of this mnemonic is taken with status `p` (R281 to R288). -/
def branchTaken : Mnemonic → Byte → Bool
  | .bpl, p => !getFlag .n p
  | .bmi, p => getFlag .n p
  | .bvc, p => !getFlag .v p
  | .bvs, p => getFlag .v p
  | .bcc, p => !getFlag .c p
  | .bcs, p => getFlag .c p
  | .bne, p => !getFlag .z p
  | .beq, p => getFlag .z p
  | _, _ => false

/-- The instruction-specific penalty (R154, R280), PC being the address after the instruction. -/
def ownPenalty (i : Instr) (s : State) : Nat :=
  match i.operand with
  | .relative o =>
    if branchTaken i.mnemonic s.p then
      1 + if page (branchTarget s.pc o) = page s.pc then 0 else 1
    else 0
  | _ => 0

/-- The addresses an instruction stores to, in order: the effective address of a store or a read-modify-write, the
stack bytes of a push, JSR and BRK (R22, R134, R155). -/
def storedTo (i : Instr) (s : State) : List Addr :=
  match i.mnemonic with
  | .sta | .stx | .sty | .inc | .dec | .asl | .lsr | .rol | .ror => (effectiveAddr i.operand s).toList
  | .pha | .php => [stackAddr s.sp]
  | .jsr => [stackAddr s.sp, stackAddr (s.sp - 1)]
  | .brk => [stackAddr s.sp, stackAddr (s.sp - 1), stackAddr (s.sp - 2)]
  | _ => []

end Sys2Proof.Machine
end

