-- ==== Sys2Proof/Certificates/Slice0/Obligations.lean ====
section
/-! DEFINITION. The statements for the provers. In every statement about `exec`, PC already holds the address of the
byte after the instruction (R130). "decision D<n>" is a point the spec marks as its own choice. -/

open Sys2Proof Sys2Proof.Machine

/-! ### Encoding -/

/-- Decoding an encoded well-formed instruction gives it back, every operand at every value, and leaves the bytes that
follow (R100 to R108). -/
def Obligations.DecodeOfEncode : Prop :=
  ∀ (i : Instr) (rest : List Byte), i.wellFormed → decode (encode i ++ rest) = .ok (i, rest)

/-- What the decoder reads is well formed and encodes to exactly the bytes it was read from: each byte string has one
meaning (R107, R112). -/
def Obligations.EncodeOfDecode : Prop :=
  ∀ (bytes rest : List Byte) (i : Instr), decode bytes = .ok (i, rest) → i.wellFormed ∧ encode i ++ rest = bytes

/-- The decoder takes the opcode byte, looks up its descriptor and takes `length - 1` further bytes, for every opcode
byte and whatever follows (R107). -/
def Obligations.DecodeTakesDescriptorLength : Prop :=
  ∀ (op : Byte) (more : List Byte), (descriptor op).length - 1 ≤ more.length →
    ∃ i, decode (op :: more) = .ok (i, more.drop ((descriptor op).length - 1)) ∧ opcode i = op ∧
      (encode i).length = (descriptor op).length

/-- The descriptor of an instruction's opcode has its mnemonic and its mode, and exactly the bytes of R110 are illegal
(R29, R108, R110). -/
def Obligations.TableAgreesWithInstructions : Prop :=
  (∀ i : Instr, i.wellFormed → (descriptor (opcode i)).mnemonic = i.mnemonic ∧ (descriptor (opcode i)).mode = i.operand.mode) ∧
    ∀ op : Byte, (descriptor op).mnemonic = .illegal ↔ op ∈ illegalBytes

/-- The table has 256 descriptors, 151 of them official; the page-cross flag is set on exactly the 23 opcodes of R149. -/
def Obligations.TableShape : Prop :=
  opcodeTable.length = 256 ∧ (opcodeTable.filter (fun d => d.mnemonic ≠ .illegal)).length = 151 ∧
    ∀ op : Byte, (descriptor op).pageCross = true ↔
      op ∈ ([0x71, 0x79, 0x7D, 0x31, 0x39, 0x3D, 0xD1, 0xD9, 0xDD, 0x51, 0x59, 0x5D, 0xB1, 0xB9, 0xBD, 0x11, 0x19, 0x1D,
        0xF1, 0xF9, 0xFD, 0xBE, 0xBC] : List Byte)

/-- A few words written out from the encodings decode to the instructions they stand for (R101, R108). -/
def Obligations.SampleWordsDecode : Prop :=
  decodeTableWord 16 0b01000010_10101001 = some (.ldaImm 0x42) ∧
  decodeTableWord 24 0b00010010_00110100_10001101 = some (.staAbs 0x1234) ∧
  decodeTableWord 8 0b01001000 = some .pha ∧
  decodeTableWord 16 0b00100000_01110001 = some (.adcIndY 0x20) ∧
  decodeTableWord 8 0b00001010 = some .aslAcc ∧
  decodeTableWord 16 0b11111110_11010000 = some (.bne 0xFE) ∧
  decodeTableWord 24 0b00000010_11111111_01101100 = some (.jmpInd 0x02FF) ∧
  decodeTableWord 8 0b11101010 = some .nop ∧
  decodeTableWord 8 0b00000010 = some (.illegal 0x02)

/-! ### Memory bus -/

/-- Every address decodes to one target, by the windows of R58 (R52 to R58; 0x4018 to 0x401F by decision D7). -/
def Obligations.DecodeWindows : Prop :=
  ∀ (b : Bus) (a : Addr),
    (a.toNat < 0x2000 → b.target a = .ram (a.toNat % 0x0800)) ∧
    (0x2000 ≤ a.toNat → a.toNat < 0x4000 → b.target a = .ppu (a.toNat % 8)) ∧
    (0x4000 ≤ a.toNat → a.toNat < 0x4018 → b.target a = .io (a.toNat - 0x4000)) ∧
    (0x4018 ≤ a.toNat → a.toNat < 0x8000 → b.target a = .unmapped) ∧
    (0x8000 ≤ a.toNat → b.target a = .rom ((a.toNat - 0x8000) % b.prg.size))

/-- RAM mirroring: an address below 0x2000 selects the RAM byte of its value mod 0x0800, and a write through any copy is
seen through every copy (R53). -/
def Obligations.RamMirrorRoundTrip : Prop :=
  ∀ (s : State) (a c : Addr) (v : Byte), s.wf → a.toNat < 0x2000 →
    s.bus.target a = .ram (a.toNat % 0x0800) ∧
    (c.toNat < 0x2000 → c.toNat % 0x0800 = a.toNat % 0x0800 → (s.memWrite a v).bus.read c = v)

/-- The stubs are shadow storage: a read gives the byte last written to that index (R54, R55, decision D6). -/
def Obligations.StubsAreShadowStorage : Prop :=
  ∀ (s : State) (a c : Addr) (v : Byte), s.wf →
    ((0x2000 ≤ a.toNat ∧ a.toNat < 0x4000 ∧ 0x2000 ≤ c.toNat ∧ c.toNat < 0x4000 ∧ c.toNat % 8 = a.toNat % 8) ∨
      (0x4000 ≤ a.toNat ∧ a.toNat < 0x4018 ∧ c = a)) →
    (s.memWrite a v).bus.read c = v ∧ (s.memWrite a v).trace = s.trace

/-- Program-ROM mirroring: the index is taken modulo the length, so a 16 KiB image repeats at 0xC000 and a 32 KiB
image does not (R57). -/
def Obligations.RomMirroring : Prop :=
  ∀ (b : Bus) (a : Addr), 0x8000 ≤ a.toNat →
    b.read a = b.prg.read ((a.toNat - 0x8000) % b.prg.size) ∧
    (b.prg.size = 16384 → 0xC000 ≤ a.toNat → b.read a = b.read (a - 0x4000)) ∧
    (b.prg.size = 32768 → b.read a = b.prg.read (a.toNat - 0x8000))

/-- A write to the program-ROM window changes no store and logs `RomWrite`, and a store or read-modify-write that makes
one completes with its memory unchanged (R62). -/
def Obligations.RomWriteIgnored : Prop :=
  (∀ (s : State) (a : Addr) (v : Byte), 0x8000 ≤ a.toNat →
    s.memWrite a v = { s with trace := s.trace ++ [.romWrite a] }) ∧
  ∀ (i : Instr) (s : State) (a : Addr), storedTo i s = [a] → 0x8000 ≤ a.toNat →
    ∃ t, exec i s = .next t ∧ t.bus = s.bus ∧ .romWrite a ∈ t.trace

/-- An Unmapped address reads 0xFF with `OpenBusRead`, and a write to it changes no store and logs `UnmappedWrite`
(R56, R60, R63; the write by decision D8). -/
def Obligations.UnmappedAccess : Prop :=
  ∀ (s : State) (a : Addr) (v : Byte), 0x4018 ≤ a.toNat → a.toNat < 0x8000 →
    s.memByte a = 0xFF ∧ s.afterRead a = { s with trace := s.trace ++ [.openBusRead a] } ∧
    s.memWrite a v = { s with trace := s.trace ++ [.unmappedWrite a] }

/-! ### The addressing-mode resolver -/

/-- The zero-page modes: the index is added in 8 bits and nothing crosses a page (R138 to R140). -/
def Obligations.ResolveZeroPage : Prop :=
  ∀ (s : State) (z : Byte),
    resolve (.zp z) s = ⟨BitVec.ofNat 16 z.toNat, false, s⟩ ∧
    resolve (.zpX z) s = ⟨BitVec.ofNat 16 ((z.toNat + s.x.toNat) % 256), false, s⟩ ∧
    resolve (.zpY z) s = ⟨BitVec.ofNat 16 ((z.toNat + s.y.toNat) % 256), false, s⟩

/-- The absolute modes: the index is added mod 65536, and the crossed bit says whether the page changed (R142 to
R144). -/
def Obligations.ResolveAbsolute : Prop :=
  ∀ (s : State) (a : Addr),
    resolve (.abs a) s = ⟨a, false, s⟩ ∧
    resolve (.absX a) s = ⟨BitVec.ofNat 16 (a.toNat + s.x.toNat),
      decide ((a.toNat + s.x.toNat) % 65536 / 256 ≠ a.toNat / 256), s⟩ ∧
    resolve (.absY a) s = ⟨BitVec.ofNat 16 (a.toNat + s.y.toNat),
      decide ((a.toNat + s.y.toNat) % 65536 / 256 ≠ a.toNat / 256), s⟩

/-- The indirect modes: the pointer's two bytes both lie in the zero page, low byte first, and reading them changes
nothing (R145, R146; the wrap of IndirectY by decision D12). -/
def Obligations.ResolveIndirect : Prop :=
  ∀ (s : State) (z : Byte),
    let zpByte := fun n : Nat => (s.bus.read (BitVec.ofNat 16 (n % 256))).toNat
    let base := zpByte z.toNat + 256 * zpByte (z.toNat + 1)
    resolve (.indX z) s =
      ⟨BitVec.ofNat 16 (zpByte (z.toNat + s.x.toNat) + 256 * zpByte (z.toNat + s.x.toNat + 1)), false, s⟩ ∧
    resolve (.indY z) s =
      ⟨BitVec.ofNat 16 (base + s.y.toNat), decide ((base + s.y.toNat) % 65536 / 256 ≠ base / 256), s⟩

/-! ### The step and the whole machine -/

/-- When the bytes at PC decode to `i`, a step in Ready is `exec i` in the state where PC has moved past the bytes of
`i` and the reads of exactly those bytes are logged (R130, R155). -/
def Obligations.StepRunsDecodedInstruction : Prop :=
  ∀ (s : State) (i : Instr) (rest : List Byte), s.run = .ready →
    decode [s.bus.read s.pc, s.bus.read (s.pc + 1), s.bus.read (s.pc + 2)] = .ok (i, rest) →
    step s = exec i { s with
      pc := s.pc + BitVec.ofNat 16 (encode i).length
      trace := s.trace ++ (List.range (encode i).length).flatMap (fun k => s.bus.readDiags (s.pc + BitVec.ofNat 16 k)) }

/-- Every step keeps the invariant: canonical memory, a legal program-ROM size, a legal trainer count (R31, R33). -/
def Obligations.StepKeepsWellFormed : Prop :=
  ∀ s t : State, s.wf → step s = .next t → t.wf

/-- The invariant holds in the model's state after reset, and that state is what `reset()` leaves of it (R36, R360; its
blank cartridge is the model's choice, notes/assumptions/2.md, and so are the cleared result and the kept trace,
notes/assumptions/3.md). -/
def Obligations.ResetStateIsWellFormedReset : Prop := State.reset.wf = true ∧ State.reset.hostReset = State.reset

/-- From every Ready state the machine runs any number of steps, never faults, never refuses and never leaves Ready:
no instruction and no bus access stops it (R59, R332, R342; Halted by decision D18). -/
def Obligations.ReadyRunsForever : Prop :=
  ∀ (k : Nat) (s : State), s.run = .ready → RunsFor k s

/-- Halted is entered by `abort()`, which changes nothing else, has no transition, and is left by `reset()` (R152,
R342, R363, decision D18; the stuck state as the fault `halted` is notes/assumptions/4.md). -/
def Obligations.HaltedIsStuckUntilReset : Prop :=
  ∀ s : State, s.hostAbort = { s with run := .halted } ∧ step s.hostAbort = .fault .halted ∧
    (s.run = .halted → step s = .fault .halted) ∧ s.hostAbort.hostReset.run = .ready ∧
    s.hostAbort.hostReset = s.hostReset

/-- `reset()` loads PC from the vector at 0xFFFC and 0xFFFD on the bus, clears P, leaves every store, and has the same
effect a second time; A, X, Y and SP take the values of decision D4 (R360, R361, R363, R366). That the result is cleared
and the trace kept is the model's choice (notes/assumptions/3.md). -/
def Obligations.HostResetLoadsVector : Prop :=
  ∀ s : State,
    s.hostReset = { s with
      a := 0x00, x := 0x00, y := 0x00, sp := 0xFD, p := 0x00, run := .ready, result := none
      pc := word (s.bus.read 0xFFFC) (s.bus.read 0xFFFD) } ∧
    s.hostReset.hostReset = s.hostReset

/-- After `reset()`, PC is always the 16-bit word at 0xFFFC and 0xFFFD on the bus, whatever that word is and whatever
state the machine was in; it is no constant (R366). -/
def Obligations.ResetReadsVectorNotConstant : Prop :=
  ∀ s : State, s.hostReset.pc.toNat = (s.bus.read 0xFFFC).toNat + 256 * (s.bus.read 0xFFFD).toNat

/-- The program ROM is read-only: no step changes the cartridge image or a byte of the ROM window (R31, R62). -/
def Obligations.RomNeverChanges : Prop :=
  ∀ s t : State, step s = .next t →
    t.bus.image = s.bus.image ∧ ∀ a : Addr, 0x8000 ≤ a.toNat → t.bus.read a = s.bus.read a

/-- The result and the trace are outputs: nothing in a step reads them, and a step only appends to the trace (R35,
R157, R158, R375). -/
def Obligations.OutputsAreNeverRead : Prop :=
  ∀ (s : State) (r : Option StepResult) (old : List Diagnostic), s.run = .ready →
    ∃ t es, step s = .next t ∧ t.trace = s.trace ++ es ∧
      step { s with result := r, trace := old } = .next { t with trace := old ++ es }

/-- The bus ignores every field of the image but its program ROM: a step does the same whatever the graphics ROM,
mapper id, mirroring mode and trainer count are (R32, R69, decision D10). -/
def Obligations.ImageFieldsAreNeverRead : Prop :=
  ∀ (s : State) (img : CartridgeImage), s.run = .ready → img.prgRom = s.bus.image.prgRom →
    ∃ t, step s = .next t ∧
      step { s with bus := { s.bus with image := img } } = .next { t with bus := { t.bus with image := img } }

/-- A step reports `UnimplementedOpcode` with the byte and its address exactly when the fetched byte is one of the 105
illegal ones (R330, R339). -/
def Obligations.ConditionExactlyOnIllegalBytes : Prop :=
  ∀ s : State, s.run = .ready →
    ∃ t n, step s = .next t ∧ t.result = some ⟨n,
      if s.bus.read s.pc ∈ illegalBytes then some (.unimplementedOpcode (s.bus.read s.pc) s.pc) else none⟩

/-- The cycles of a step are the base cycles, the page-cross cycle where the descriptor carries the flag and the
resolver crossed, and the branch penalty (R148, R153, R154). -/
def Obligations.CyclesFormula : Prop :=
  ∀ (i : Instr) (s : State), ∃ t c, exec i s = .next t ∧
    t.result = some ⟨(descriptor (opcode i)).baseCycles
      + (if (descriptor (opcode i)).pageCross = true ∧ crosses i.operand s = true then 1 else 0) + ownPenalty i s, c⟩

/-- Only the listed instructions write A, X, Y, SP and PC; PC already stands after the instruction (R21 to R23). -/
def Obligations.RegisterWriters : Prop :=
  ∀ (i : Instr) (s t : State), exec i s = .next t →
    (t.a ≠ s.a → i.mnemonic ∈ ([.lda, .pla, .txa, .tya, .adc, .sbc, .and, .ora, .eor] : List Mnemonic) ∨
      i.operand = .accumulator) ∧
    (t.x ≠ s.x → i.mnemonic ∈ ([.ldx, .tax, .tsx, .inx, .dex] : List Mnemonic)) ∧
    (t.y ≠ s.y → i.mnemonic ∈ ([.ldy, .tay, .iny, .dey] : List Mnemonic)) ∧
    (t.sp ≠ s.sp → i.mnemonic ∈ ([.txs, .pha, .php, .pla, .plp, .jsr, .rts, .brk, .rti] : List Mnemonic)) ∧
    (t.pc ≠ s.pc → i.mnemonic ∈
      ([.bpl, .bmi, .bvc, .bvs, .bcc, .bcs, .bne, .beq, .jmp, .jsr, .rts, .brk, .rti] : List Mnemonic))

/-- Only the listed instructions write a flag (R25); beside them Z and N are written by every `SetZN` writer. -/
def Obligations.FlagWriters : Prop :=
  ∀ (i : Instr) (s t : State) (f : Flag), exec i s = .next t → getFlag f t.p ≠ getFlag f s.p →
    i.mnemonic ∈ ([.plp, .rti] : List Mnemonic) ∨
    match f with
    | .c => i.mnemonic ∈ ([.sec, .clc, .adc, .sbc, .cmp, .cpx, .cpy, .asl, .lsr, .rol, .ror] : List Mnemonic)
    | .z | .n => i.mnemonic ∈ ([.lda, .ldx, .ldy, .tax, .tay, .tsx, .txa, .tya, .pla, .adc, .sbc, .and, .ora, .eor, .inc,
        .dec, .inx, .iny, .dex, .dey, .asl, .lsr, .rol, .ror, .bit, .cmp, .cpx, .cpy] : List Mnemonic)
    | .i => i.mnemonic ∈ ([.sei, .cli, .brk] : List Mnemonic)
    | .d => i.mnemonic ∈ ([.sed, .cld] : List Mnemonic)
    | .v => i.mnemonic ∈ ([.adc, .sbc, .bit, .clv] : List Mnemonic)
    | .b | .r => False

/-- The memory frame of every instruction: an address that decodes to none of the cells the instruction stores to
reads as before. An instruction that stores nothing leaves all of memory (R64, R155). -/
def Obligations.MemoryFrame : Prop :=
  ∀ (i : Instr) (s t : State) (c : Addr), exec i s = .next t →
    (∀ a ∈ storedTo i s, s.bus.target c ≠ s.bus.target a) → t.bus.read c = s.bus.read c

/-! ### Loads, stores and transfers -/

/-- `SetReg(R, v)`: Z and N are recomputed together from the value, no other flag changes, and the register takes the
value (R14, R26, R27). -/
def Obligations.SetRegRecomputesZN : Prop :=
  ∀ (s : State) (r : Reg) (v : Byte),
    (s.setRegZN r v).reg r = v ∧ (∀ q, q ≠ r → (s.setRegZN r v).reg q = s.reg q) ∧
    FlagsAre (s.setRegZN r v).p s.p [(.z, decide (v = 0)), (.n, decide (128 ≤ v.toNat))]

/-- LDA, LDX and LDY complete with the loaded byte in the register, Z and N from it, and nothing else changed but the
outputs (R171 to R173). -/
def Obligations.LoadInstructions : Prop :=
  ∀ (i : Instr) (s : State), i.mnemonic ∈ ([.lda, .ldx, .ldy] : List Mnemonic) →
    ∃ v p', loadedByte i.operand s = some v ∧ FlagsAre p' s.p (znOf v) ∧
      (i.mnemonic = .lda → exec i s = .next { s.loaded i with a := v, p := p' }) ∧
      (i.mnemonic = .ldx → exec i s = .next { s.loaded i with x := v, p := p' }) ∧
      (i.mnemonic = .ldy → exec i s = .next { s.loaded i with y := v, p := p' })

/-- STA, STX and STY complete with the register written to the effective address, which is not read; no register and
no flag changes (R174 to R176). -/
def Obligations.StoreInstructions : Prop :=
  ∀ (i : Instr) (s : State), i.mnemonic ∈ ([.sta, .stx, .sty] : List Mnemonic) →
    ∃ ea, effectiveAddr i.operand s = some ea ∧
      (i.mnemonic = .sta → exec i s = .next
        { s.done i with bus := s.bus.write ea s.a, trace := s.trace ++ s.bus.writeDiags ea }) ∧
      (i.mnemonic = .stx → exec i s = .next
        { s.done i with bus := s.bus.write ea s.x, trace := s.trace ++ s.bus.writeDiags ea }) ∧
      (i.mnemonic = .sty → exec i s = .next
        { s.done i with bus := s.bus.write ea s.y, trace := s.trace ++ s.bus.writeDiags ea })

/-- The transfers complete; all but TXS recompute Z and N from the value moved, and TXS writes no flag (R177 to
R182). -/
def Obligations.TransferInstructions : Prop :=
  ∀ s : State, ∃ pa px py psp, FlagsAre pa s.p (znOf s.a) ∧ FlagsAre px s.p (znOf s.x) ∧ FlagsAre py s.p (znOf s.y) ∧
    FlagsAre psp s.p (znOf s.sp) ∧
    exec .tax s = .next { s.done .tax with x := s.a, p := pa } ∧
    exec .tay s = .next { s.done .tay with y := s.a, p := pa } ∧
    exec .txa s = .next { s.done .txa with a := s.x, p := px } ∧
    exec .tya s = .next { s.done .tya with a := s.y, p := py } ∧
    exec .tsx s = .next { s.done .tsx with x := s.sp, p := psp } ∧
    exec .txs s = .next { s.done .txs with sp := s.x }

/-! ### Stack -/

/-- PHA and PHP complete with the byte at 0x0100 + SP and SP down by one mod 256; P is pushed as stored (R200, R201; the
latter by decision D2). -/
def Obligations.PushInstructions : Prop :=
  ∀ s : State, ∃ addr : Addr, addr.toNat = 0x0100 + s.sp.toNat ∧
    exec .pha s = .next { s.done .pha with bus := s.bus.write addr s.a, sp := s.sp - 1 } ∧
    exec .php s = .next { s.done .php with bus := s.bus.write addr s.p, sp := s.sp - 1 }

/-- PLA and PLP complete with SP up by one mod 256 and the byte at 0x0100 + SP in A, with Z and N from it, or in P, all
eight bits (R202, R203; the latter by decision D2). -/
def Obligations.PullInstructions : Prop :=
  ∀ s : State, ∃ (addr : Addr) (p' : Byte), addr.toNat = 0x0100 + (s.sp.toNat + 1) % 256 ∧
    FlagsAre p' s.p (znOf (s.bus.read addr)) ∧
    exec .pla s = .next { s.done .pla with a := s.bus.read addr, sp := s.sp + 1, p := p' } ∧
    exec .plp s = .next { s.done .plp with p := s.bus.read addr, sp := s.sp + 1 }

/-- `Push(v); Pull()` returns `v` and restores SP, at every SP, 0x00 included (R22, R147, decision D24). -/
def Obligations.PushPullRoundTrip : Prop :=
  ∀ (s : State) (v : Byte), s.wf → (s.push v).pulled = v ∧ (s.push v).afterPull.sp = s.sp

/-! ### Arithmetic and logic -/

/-- ADC completes with the sum mod 256 in A, C the unsigned carry out, V the signed overflow, Z and N from the result,
and nothing else changed but the outputs (R220, R222). -/
def Obligations.AdcAddsWithCarry : Prop :=
  ∀ (i : Instr) (s : State), i.mnemonic = .adc →
    ∃ m p', loadedByte i.operand s = some m ∧
      let sum := s.a.toNat + m.toNat + (getFlag .c s.p).toNat
      let signed := s.a.toInt + m.toInt + (getFlag .c s.p).toNat
      let r := BitVec.ofNat 8 sum
      FlagsAre p' s.p ((.c, decide (256 ≤ sum)) :: (.v, decide (signed < -128 ∨ 127 < signed)) :: znOf r) ∧
      exec i s = .next { s.loaded i with a := r, p := p' }

/-- SBC completes with the difference less the borrow (the inverse of C) mod 256 in A, C set iff there is no borrow,
V the signed overflow, Z and N from the result (R220, R223). -/
def Obligations.SbcSubtractsWithBorrow : Prop :=
  ∀ (i : Instr) (s : State), i.mnemonic = .sbc →
    ∃ m p', loadedByte i.operand s = some m ∧
      let borrow : Int := 1 - (getFlag .c s.p).toNat
      let diff : Int := s.a.toNat - m.toNat - borrow
      let signed := s.a.toInt - m.toInt - borrow
      let r := BitVec.ofInt 8 diff
      FlagsAre p' s.p ((.c, decide (0 ≤ diff)) :: (.v, decide (signed < -128 ∨ 127 < signed)) :: znOf r) ∧
      exec i s = .next { s.loaded i with a := r, p := p' }

/-- The decimal flag changes nothing in ADC and SBC: with D at either value they do the same, and D stays (R220,
decision D14). -/
def Obligations.DecimalFlagIgnored : Prop :=
  ∀ (i : Instr) (s : State) (d : Bool), i.mnemonic ∈ ([.adc, .sbc] : List Mnemonic) →
    ∃ t, exec i s = .next t ∧ exec i { s with p := setFlag .d d s.p } = .next { t with p := setFlag .d d t.p }

/-- AND, ORA and EOR complete with the bitwise result in A and Z and N from it; C and V stay (R224 to R226). -/
def Obligations.LogicInstructions : Prop :=
  ∀ (i : Instr) (s : State), i.mnemonic ∈ ([.and, .ora, .eor] : List Mnemonic) →
    ∃ m r p', loadedByte i.operand s = some m ∧ FlagsAre p' s.p (znOf r) ∧
      (i.mnemonic = .and → ∀ k, r.getLsbD k = (s.a.getLsbD k && m.getLsbD k)) ∧
      (i.mnemonic = .ora → ∀ k, r.getLsbD k = (s.a.getLsbD k || m.getLsbD k)) ∧
      (i.mnemonic = .eor → ∀ k, r.getLsbD k = (s.a.getLsbD k ^^ m.getLsbD k)) ∧
      exec i s = .next { s.loaded i with a := r, p := p' }

/-- BIT completes with Z from `A & m`, N and V from bits 7 and 6 of the memory byte, and A unchanged (R227). -/
def Obligations.BitTestsMemory : Prop :=
  ∀ (i : Instr) (s : State), i.mnemonic = .bit →
    ∃ m p', loadedByte i.operand s = some m ∧
      FlagsAre p' s.p [(.z, decide (s.a &&& m = 0)), (.n, m.getLsbD 7), (.v, m.getLsbD 6)] ∧
      exec i s = .next { s.loaded i with p := p' }

/-- CMP, CPX and CPY complete with C = (r >= m) unsigned, Z = (r = m), N bit 7 of the difference; V and every register
stay (R221, R228 to R230). -/
def Obligations.CompareInstructions : Prop :=
  ∀ (i : Instr) (s : State), i.mnemonic ∈ ([.cmp, .cpx, .cpy] : List Mnemonic) →
    ∃ m p', loadedByte i.operand s = some m ∧
      (∀ r : Byte, r = (if i.mnemonic = .cmp then s.a else if i.mnemonic = .cpx then s.x else s.y) →
        FlagsAre p' s.p [(.c, decide (m.toNat ≤ r.toNat)), (.z, decide (r = m)), (.n, (r - m).getLsbD 7)]) ∧
      exec i s = .next { s.loaded i with p := p' }

/-- INC and DEC complete with the memory byte one up or one down mod 256, read once and written once, and Z and N from
the result; C and V stay (R231, R232). -/
def Obligations.IncDecMemory : Prop :=
  ∀ (i : Instr) (s : State),
    (i.mnemonic = .inc → Modifies i s (fun m => BitVec.ofNat 8 (m.toNat + 1)) (fun _ r => znOf r)) ∧
    (i.mnemonic = .dec → Modifies i s (fun m => BitVec.ofNat 8 (m.toNat + 255)) (fun _ r => znOf r))

/-- INX, INY, DEX and DEY complete with the register one up or one down mod 256 and Z and N from it; C stays (R233 to
R236). -/
def Obligations.IncDecRegister : Prop :=
  ∀ s : State, ∃ x₁ x₂ y₁ y₂ px₁ px₂ py₁ py₂ : Byte,
    x₁.toNat = (s.x.toNat + 1) % 256 ∧ x₂.toNat = (s.x.toNat + 255) % 256 ∧
    y₁.toNat = (s.y.toNat + 1) % 256 ∧ y₂.toNat = (s.y.toNat + 255) % 256 ∧
    FlagsAre px₁ s.p (znOf x₁) ∧ FlagsAre px₂ s.p (znOf x₂) ∧ FlagsAre py₁ s.p (znOf y₁) ∧ FlagsAre py₂ s.p (znOf y₂) ∧
    exec .inx s = .next { s.done .inx with x := x₁, p := px₁ } ∧
    exec .dex s = .next { s.done .dex with x := x₂, p := px₂ } ∧
    exec .iny s = .next { s.done .iny with y := y₁, p := py₁ } ∧
    exec .dey s = .next { s.done .dey with y := y₂, p := py₂ }

/-! ### Shifts and rotates -/

/-- ASL and LSR, on A and on memory, complete with the byte moved one bit, the bit shifted out in C, and Z and N from
the result (R260 to R262). -/
def Obligations.ShiftInstructions : Prop :=
  ∀ (i : Instr) (s : State),
    (i.mnemonic = .asl → Modifies i s (fun m => BitVec.ofNat 8 (2 * m.toNat)) (fun m r => (.c, m.getLsbD 7) :: znOf r)) ∧
    (i.mnemonic = .lsr → Modifies i s (fun m => BitVec.ofNat 8 (m.toNat / 2)) (fun m r => (.c, m.getLsbD 0) :: znOf r))

/-- ROL and ROR, on A and on memory, complete with the byte moved one bit, the old carry in the vacated bit, the bit
shifted out in C, and Z and N from the result (R260, R263, R264). -/
def Obligations.RotateInstructions : Prop :=
  ∀ (i : Instr) (s : State),
    (i.mnemonic = .rol →
      Modifies i s (fun m => BitVec.ofNat 8 (2 * m.toNat + (getFlag .c s.p).toNat)) (fun m r => (.c, m.getLsbD 7) :: znOf r)) ∧
    (i.mnemonic = .ror →
      Modifies i s (fun m => BitVec.ofNat 8 (m.toNat / 2 + 128 * (getFlag .c s.p).toNat))
        (fun m r => (.c, m.getLsbD 0) :: znOf r))

/-! ### Control -/

/-- The eight branches complete: not taken in 2 cycles, taken in 3, taken to another page than that of the instruction
after the branch in 4; PC takes the signed offset mod 65536, and no flag is written (R280; the bit each tests is in R281
to R288). -/
def Obligations.BranchInstructions : Prop :=
  ∀ (o : Byte) (s : State),
    let t := BitVec.ofInt 16 (s.pc.toNat + o.toInt)
    let completes := fun (i : Instr) (cond : Bool) => exec i s = .next (if cond then
      { s with pc := t, result := some ⟨if t.toNat / 256 = s.pc.toNat / 256 then 3 else 4, none⟩ }
      else { s with result := some ⟨2, none⟩ })
    completes (.bpl o) (!getFlag .n s.p) ∧ completes (.bmi o) (getFlag .n s.p) ∧
    completes (.bvc o) (!getFlag .v s.p) ∧ completes (.bvs o) (getFlag .v s.p) ∧
    completes (.bcc o) (!getFlag .c s.p) ∧ completes (.bcs o) (getFlag .c s.p) ∧
    completes (.bne o) (!getFlag .z s.p) ∧ completes (.beq o) (getFlag .z s.p)

/-- JMP completes: absolute goes to its operand and reads nothing there; indirect goes to the word whose low byte is at
the pointer and whose high byte is at the next address of the same page (R289, R290; the page wrap by decision D11). -/
def Obligations.JumpInstructions : Prop :=
  ∀ (a : Addr) (s : State),
    let hi : Addr := BitVec.ofNat 16 (256 * (a.toNat / 256) + (a.toNat + 1) % 256)
    exec (.jmpAbs a) s = .next { s.done (.jmpAbs a) with pc := a } ∧
    exec (.jmpInd a) s = .next { s.done (.jmpInd a) with
      pc := BitVec.ofNat 16 ((s.bus.read a).toNat + 256 * (s.bus.read hi).toNat)
      trace := s.trace ++ s.bus.readDiags a ++ s.bus.readDiags hi }

/-- JSR completes with the address of its last byte pushed, high byte first, SP down by two and PC at the target; RTS
completes with the pulled word plus one in PC and SP up by two (R296, R297). -/
def Obligations.SubroutineInstructions : Prop :=
  ∀ (a : Addr) (s : State),
    exec (.jsr a) s = .next { s.done (.jsr a) with
      bus := (s.bus.write (stackAddr s.sp) (hiByte (s.pc - 1))).write (stackAddr (s.sp - 1)) (loByte (s.pc - 1))
      sp := s.sp - 2, pc := a } ∧
    exec .rts s = .next { s.done .rts with
      sp := s.sp + 2
      pc := BitVec.ofNat 16
        ((s.bus.read (stackAddr (s.sp + 1))).toNat + 256 * (s.bus.read (stackAddr (s.sp + 2))).toNat + 1) }

/-- JSR and RTS round trip: an RTS that finds SP and the two stacked bytes as JSR left them resumes at the instruction
after the JSR with SP restored (R298). -/
def Obligations.JsrRtsRoundTrip : Prop :=
  ∀ (a : Addr) (s s₁ u : State), s.wf → exec (.jsr a) s = .next s₁ → u.sp = s₁.sp →
    (∀ k : Byte, k = s₁.sp + 1 ∨ k = s₁.sp + 2 → u.bus.read (stackAddr k) = s₁.bus.read (stackAddr k)) →
    ∃ t, exec .rts u = .next t ∧ t.pc = s.pc ∧ t.sp = s.sp

/-- BRK completes with its entry: PC high, PC low and P as stored are pushed, SP is down by three, P.I is set and no
other flag changes, and PC is the word at 0xFFFE and 0xFFFF (R292, R333, R334; P as stored by decision D2, the pushed
PC by decision D3). -/
def Obligations.BrkEntersThroughVector : Prop :=
  ∀ s : State, ∃ p', FlagsAre p' s.p [(.i, true)] ∧
    exec .brk s = .next { s.done .brk with
      bus := ((s.bus.write (stackAddr s.sp) (hiByte s.pc)).write (stackAddr (s.sp - 1)) (loByte s.pc)).write
        (stackAddr (s.sp - 2)) s.p
      sp := s.sp - 3, p := p', pc := word (s.bus.read 0xFFFE) (s.bus.read 0xFFFF) }

/-- RTI completes with P, PC low and PC high pulled, SP up by three, and nothing added to the pulled address (R293,
R336). -/
def Obligations.RtiReturns : Prop :=
  ∀ s : State, exec .rti s = .next { s.done .rti with
    p := s.bus.read (stackAddr (s.sp + 1))
    pc := word (s.bus.read (stackAddr (s.sp + 2))) (s.bus.read (stackAddr (s.sp + 3)))
    sp := s.sp + 3 }

/-- BRK and RTI round trip: an RTI that finds SP and the three stacked bytes as BRK left them restores PC, P (with I as
it was) and SP (R294). -/
def Obligations.BrkRtiRoundTrip : Prop :=
  ∀ s s₁ u : State, s.wf → exec .brk s = .next s₁ → u.sp = s₁.sp →
    (∀ k : Byte, k = s₁.sp + 1 ∨ k = s₁.sp + 2 ∨ k = s₁.sp + 3 →
      u.bus.read (stackAddr k) = s₁.bus.read (stackAddr k)) →
    ∃ t, exec .rti u = .next t ∧ t.pc = s.pc ∧ t.p = s.p ∧ t.sp = s.sp

/-! ### Flags, NOP and the illegal bytes -/

/-- Each flag instruction completes with its one flag written and nothing else changed; NOP completes with nothing
changed (R310 to R317). -/
def Obligations.FlagInstructions : Prop :=
  ∀ s : State,
    let writes := fun (i : Instr) (f : Flag) (b : Bool) =>
      ∃ p', FlagsAre p' s.p [(f, b)] ∧ exec i s = .next { s.done i with p := p' }
    writes .clc .c false ∧ writes .cld .d false ∧ writes .cli .i false ∧ writes .clv .v false ∧
    writes .sec .c true ∧ writes .sed .d true ∧ writes .sei .i true ∧ exec .nop s = .next (s.done .nop)

/-- An illegal byte completes as a no-operation that reports and logs `UnimplementedOpcode` with the byte and the
address it was fetched from, in 2 cycles (R150, R330; the cycles by decision D16). -/
def Obligations.IllegalByteReportsAndGoesOn : Prop :=
  ∀ (op : Byte) (s : State), (Instr.illegal op).wellFormed →
    exec (.illegal op) s = .next { s with
      result := some ⟨2, some (.unimplementedOpcode op (s.pc - 1))⟩
      trace := s.trace ++ [.unimplementedOpcode op (s.pc - 1)] }

/-! ### The cartridge loader and boot -/

/-- `parse` rejects a short input, then a wrong magic, then a wrong size, each as `FormatInvalid` with its reason, and
never answers `RangeInvalid` (R82, R87, R88, R91; the order by decision D21). -/
def Obligations.ParseRejects : Prop :=
  ∀ bytes : List Byte,
    (bytes.length < 16 → parse bytes = .error (.formatInvalid .tooShort)) ∧
    (16 ≤ bytes.length → bytes.take 4 ≠ [0x4E, 0x45, 0x53, 0x1A] → parse bytes = .error (.formatInvalid .badMagic)) ∧
    (16 ≤ bytes.length → bytes.take 4 = [0x4E, 0x45, 0x53, 0x1A] → bytes.length ≠ expectedSize bytes →
      parse bytes = .error (.formatInvalid .sizeMismatch)) ∧
    parse bytes ≠ .error .rangeInvalid

/-- `parse` accepts an input of the exact size and answers the image: the two ROMs byte for byte from where they stand
in the container, the trainer count, and the header's mapper id and mirroring mode (R80 to R91). -/
def Obligations.ParseAccepts : Prop :=
  ∀ bytes : List Byte, 16 ≤ bytes.length → bytes.take 4 = [0x4E, 0x45, 0x53, 0x1A] →
    let trainer := if (bytes.getD 6 0).getLsbD 2 then 512 else 0
    let prg := 16384 * (bytes.getD 4 0).toNat
    let chr := 8192 * (bytes.getD 5 0).toNat
    bytes.length = 16 + trainer + prg + chr →
    ∃ img, parse bytes = .ok img ∧ img.wf ∧ img.trainer = trainer ∧
      img.prgRom.size = prg ∧ (∀ k, k < prg → img.prgRom.read k = bytes.getD (16 + trainer + k) 0) ∧
      img.chrRom.size = chr ∧ (∀ k, k < chr → img.chrRom.read k = bytes.getD (16 + trainer + prg + k) 0) ∧
      img.mapperId.toNat = 16 * ((bytes.getD 7 0).toNat / 16) + (bytes.getD 6 0).toNat / 16 ∧
      img.mirroring = if (bytes.getD 6 0).getLsbD 3 then .fourScreen
        else if (bytes.getD 6 0).getLsbD 0 then .vertical else .horizontal

/-- A bus is built from exactly the images whose program ROM has 16,384 or 32,768 bytes, with the OPEN contents in its
stores (R74, R94, decisions D5, D6 and D9). -/
def Obligations.BusConstruction : Prop :=
  ∀ (img : CartridgeImage) (init : PowerOn),
    (img.prgRom.size ≠ 16384 → img.prgRom.size ≠ 32768 → newBus img init = .error (.formatInvalid .prgSize)) ∧
    (img.prgRom.size = 16384 ∨ img.prgRom.size = 32768 →
      ∃ b, newBus img init = .ok b ∧ b.image = img ∧ (img.wf → Memory.wf b) ∧
        (∀ k : Fin 2048, b.read (BitVec.ofNat 16 k) = init.ramInit k) ∧
        (∀ k : Fin 8, b.read (BitVec.ofNat 16 (0x2000 + k)) = init.ppuStubInit k) ∧
        (∀ k : Fin 24, b.read (BitVec.ofNat 16 (0x4000 + k)) = init.ioStubInit k))

/-- A booted machine is Ready and well formed, with PC the word at the fourth and third last bytes of its own program ROM,
for every input that boots (R68, R360, R365; the register values by decision D4). That the result is none and the trace empty
is the model's choice (notes/assumptions/3.md and 11.md). -/
def Obligations.BootedMachine : Prop :=
  ∀ (bytes : List Byte) (init : PowerOn) (s : State), boot bytes init = .ok s →
    parse bytes = .ok s.bus.image ∧ newBus s.bus.image init = .ok s.bus ∧ s.wf ∧ s.run = .ready ∧
    s.a = 0x00 ∧ s.x = 0x00 ∧ s.y = 0x00 ∧ s.sp = 0xFD ∧ s.p = 0x00 ∧ s.result = none ∧ s.trace = [] ∧
    s.pc = word (s.bus.prg.read (s.bus.prg.size - 4)) (s.bus.prg.read (s.bus.prg.size - 3))
end

