-- ==== Sys2Proof/Laws/Memory.lean ====
section
/-! SUPPORT. The stores and the bus: read after write, frames, and the canonical form kept by every operation. -/

namespace Sys2Proof.Machine

/-- A store written at `i` reads as before at every other index. -/
theorem Store.read_write_other (st : Store) (i j : Nat) (v : Byte) (h : j ≠ i) :
    Store.read (Store.write st i v) j = Store.read st j := by
  induction st with
  | nil => unfold Store.write; split <;> simp [Store.read, Ne.symm h]
  | cons c rest ih =>
    obtain ⟨k, w⟩ := c
    simp only [Store.write]
    split
    · split <;> simp [Store.read, Ne.symm h]
    · split
      · subst_vars; split <;> simp [Store.read, Ne.symm h]
      · simp only [Store.read]; split
        · rfl
        · exact ih

/-- A canonical store has nothing listed below its first index. -/
theorem Store.read_of_lt (st : Store) (lo size i : Nat) (h : Store.wfFrom lo size st) (hi : i < lo) :
    Store.read st i = Config.unlisted := by
  induction st generalizing lo with
  | nil => rfl
  | cons c rest ih =>
    obtain ⟨k, w⟩ := c
    simp only [Store.wfFrom, Bool.and_eq_true, decide_eq_true_eq] at h
    obtain ⟨⟨⟨hk, -⟩, -⟩, hr⟩ := h
    simp only [Store.read, if_neg (show k ≠ i by omega)]
    exact ih (k + 1) hr (by omega)

/-- A canonical store written at `i` reads the byte written there. -/
theorem Store.read_write_same (st : Store) (lo size i : Nat) (v : Byte) (h : Store.wfFrom lo size st) :
    Store.read (Store.write st i v) i = v := by
  induction st generalizing lo with
  | nil => unfold Store.write; split <;> simp_all [Store.read]
  | cons c rest ih =>
    obtain ⟨k, w⟩ := c
    have hw := h
    simp only [Store.wfFrom, Bool.and_eq_true, decide_eq_true_eq] at h
    obtain ⟨⟨⟨-, -⟩, -⟩, hr⟩ := h
    simp only [Store.write]
    split
    next hik =>
      split
      · have := Store.read_of_lt ((k, w) :: rest) k size i (by simp_all [Store.wfFrom]) hik
        simp_all
      · simp [Store.read]
    next =>
      split
      next he =>
        split
        · have := Store.read_of_lt rest (k + 1) size i hr (by omega)
          simp_all
        · simp [Store.read]
      next he => simp only [Store.read, if_neg (Ne.symm he)]; exact ih (k + 1) hr

/-- A lower bound on the indices may be lowered. -/
theorem Store.wfFrom_mono (st : Store) (lo lo' size : Nat) (h : Store.wfFrom lo size st) (hl : lo' ≤ lo) :
    Store.wfFrom lo' size st := by
  cases st with
  | nil => rfl
  | cons c rest =>
    simp only [Store.wfFrom, Bool.and_eq_true, decide_eq_true_eq] at h ⊢
    exact ⟨⟨⟨by omega, h.1.1.2⟩, h.1.2⟩, h.2⟩

/-- A write inside the store's size keeps the canonical form. -/
theorem Store.wfFrom_write (st : Store) (lo size i : Nat) (v : Byte) (h : Store.wfFrom lo size st)
    (hlo : lo ≤ i) (hi : i < size) : Store.wfFrom lo size (Store.write st i v) := by
  induction st generalizing lo with
  | nil => unfold Store.write; split <;> simp_all [Store.wfFrom]
  | cons c rest ih =>
    obtain ⟨k, w⟩ := c
    have hw := h
    simp only [Store.wfFrom, Bool.and_eq_true, decide_eq_true_eq] at h
    obtain ⟨⟨⟨hk, hks⟩, hwu⟩, hr⟩ := h
    simp only [Store.write]
    split
    next hik =>
      split
      · exact hw
      · simp only [Store.wfFrom, Bool.and_eq_true, decide_eq_true_eq]
        exact ⟨⟨⟨hlo, hi⟩, ‹_›⟩, ⟨⟨by omega, hks⟩, hwu⟩, hr⟩
    next hik =>
      split
      next he =>
        split
        · exact Store.wfFrom_mono rest (k + 1) lo size hr (by omega)
        · simp only [Store.wfFrom, Bool.and_eq_true, decide_eq_true_eq]
          exact ⟨⟨⟨hlo, hi⟩, ‹_›⟩, he ▸ hr⟩
      next he =>
        simp only [Store.wfFrom, Bool.and_eq_true, decide_eq_true_eq]
        exact ⟨⟨⟨hk, hks⟩, hwu⟩, ih (k + 1) hr (by omega)⟩

/-- A write inside the store's size keeps the canonical form (from index 0). -/
theorem Store.wf_write (st : Store) (size i : Nat) (v : Byte) (h : Store.wf size st) (hi : i < size) :
    Store.wf size (Store.write st i v) :=
  Store.wfFrom_write st 0 size i v h (Nat.zero_le i) hi

/-- A list of bytes makes canonical cells. -/
theorem Store.wfFrom_ofList (k : Nat) (bs : List Byte) : Store.wfFrom k (k + bs.length) (Store.ofList k bs) := by
  induction bs generalizing k with
  | nil => rfl
  | cons b bs ih =>
    have h := ih (k + 1)
    rw [show k + 1 + bs.length = k + (b :: bs).length by simp; omega] at h
    simp only [Store.ofList]
    split
    · exact Store.wfFrom_mono _ (k + 1) k _ h (by omega)
    · simp only [Store.wfFrom, Bool.and_eq_true, decide_eq_true_eq]
      exact ⟨⟨⟨by omega, by simp⟩, ‹_›⟩, h⟩

/-- A list's cells give back its bytes. -/
theorem Store.read_ofList (k i : Nat) (bs : List Byte) (hi : i < bs.length) :
    Store.read (Store.ofList k bs) (k + i) = bs[i] := by
  induction bs generalizing k i with
  | nil => simp at hi
  | cons b bs ih =>
    have hw := Store.wfFrom_ofList (k + 1) bs
    simp only [Store.ofList]
    cases i with
    | zero =>
      split
      · rw [Store.read_of_lt _ _ _ _ hw (by omega)]; simp_all
      · simp [Store.read]
    | succ i =>
      have h := ih (k + 1) i (by simpa using hi)
      rw [show k + 1 + i = k + (i + 1) by omega] at h
      split
      · simpa using h
      · simp only [Store.read, if_neg (show k ≠ k + (i + 1) by omega)]; simpa using h

/-- Two canonical stores that read alike are the same data. -/
theorem Store.ext_of_read (st st' : Store) (lo size : Nat) (h : Store.wfFrom lo size st) (h' : Store.wfFrom lo size st')
    (hr : ∀ i, Store.read st i = Store.read st' i) : st = st' := by
  induction st generalizing lo st' with
  | nil =>
    cases st' with
    | nil => rfl
    | cons c rest =>
      obtain ⟨k, w⟩ := c
      simp only [Store.wfFrom, Bool.and_eq_true, decide_eq_true_eq] at h'
      have := hr k
      simp_all [Store.read]
  | cons c rest ih =>
    obtain ⟨k, w⟩ := c
    have hk := hr k
    simp only [Store.wfFrom, Bool.and_eq_true, decide_eq_true_eq] at h
    obtain ⟨⟨⟨hlo, hks⟩, hwu⟩, hrest⟩ := h
    cases st' with
    | nil => simp_all [Store.read]
    | cons c' rest' =>
      obtain ⟨k', w'⟩ := c'
      have hk' := hr k'
      simp only [Store.wfFrom, Bool.and_eq_true, decide_eq_true_eq] at h'
      obtain ⟨⟨⟨hlo', hks'⟩, hwu'⟩, hrest'⟩ := h'
      have hkk : k = k' := by
        rcases Nat.lt_trichotomy k k' with hlt | he | hgt
        · rw [Store.read, if_pos rfl, Store.read, if_neg (by omega)] at hk
          exact absurd (hk.trans (Store.read_of_lt rest' (k' + 1) size k hrest' (by omega))) hwu
        · exact he
        · rw [Store.read, if_neg (by omega), Store.read, if_pos rfl] at hk'
          exact absurd (hk'.symm.trans (Store.read_of_lt rest (k + 1) size k' hrest (by omega))) hwu'
      subst hkk
      have hww : w = w' := by simpa [Store.read] using hk
      subst hww
      have := ih rest' (k + 1) hrest hrest' (fun i => by
        by_cases hi : k = i
        · subst hi
          rw [Store.read_of_lt rest (k + 1) size k hrest (by omega), Store.read_of_lt rest' (k + 1) size k hrest' (by omega)]
        · have := hr i; simpa [Store.read, hi] using this)
      rw [this]

/-- The index of a RAM target is inside the RAM. -/
theorem decodeAddr_ram_lt (n i : Nat) (a : Addr) (h : decodeAddr n a = .ram i) : i < Config.ramSize := by
  simp only [decodeAddr] at h
  split at h
  · injection h with h
    subst h
    have : (a &&& (0x07FF : Addr)).toNat ≤ 0x07FF := by
      rw [BitVec.toNat_and]; exact Nat.and_le_right
    simp only [Config.ramSize]; omega
  · repeat (split at h; · cases h)
    cases h

/-- The index of a video-stub target is inside the stub. -/
theorem decodeAddr_ppu_lt (n i : Nat) (a : Addr) (h : decodeAddr n a = .ppu i) : i < Config.ppuStubSize := by
  simp only [decodeAddr] at h
  split at h
  · cases h
  · split at h
    · injection h with h
      subst h
      have : (a &&& (0x0007 : Addr)).toNat ≤ 0x0007 := by
        rw [BitVec.toNat_and]; exact Nat.and_le_right
      simp only [Config.ppuStubSize]; omega
    · repeat (split at h; · cases h)
      cases h

/-- The index of an IO-stub target is inside the stub. -/
theorem decodeAddr_io_lt (n i : Nat) (a : Addr) (h : decodeAddr n a = .io i) : i < Config.ioStubSize := by
  simp only [decodeAddr] at h
  split at h
  · cases h
  · split at h
    · cases h
    · split at h
      · injection h with h
        subst h
        simp only [Config.ioStubSize]; omega
      · split at h <;> cases h

/-- A bus write leaves the cartridge image. -/
@[simp] theorem Bus.write_image (b : Bus) (a : Addr) (v : Byte) : (b.write a v).image = b.image := by
  unfold Bus.write; cases b.target a <;> rfl

/-- A bus write leaves the program ROM. -/
@[simp] theorem Bus.write_prg (b : Bus) (a : Addr) (v : Byte) : (b.write a v).prg = b.prg := by
  rw [Bus.prg, Bus.write_image]

/-- A bus write leaves the address decoding. -/
@[simp] theorem Bus.write_target (b : Bus) (a c : Addr) (v : Byte) : (b.write a v).target c = b.target c := by
  simp [Bus.target]

/-- A bus write leaves the diagnostics of every read. -/
@[simp] theorem Bus.write_readDiags (b : Bus) (a c : Addr) (v : Byte) : (b.write a v).readDiags c = b.readDiags c := by
  simp [Bus.readDiags]

/-- A bus write leaves the diagnostics of every write. -/
@[simp] theorem Bus.write_writeDiags (b : Bus) (a c : Addr) (v : Byte) : (b.write a v).writeDiags c = b.writeDiags c := by
  simp [Bus.writeDiags]

/-- Whether an access is logged depends on the address alone. -/
theorem Bus.readDiags_eq (b : Bus) (a : Addr) :
    b.readDiags a = if 0x4018 ≤ a.toNat ∧ a.toNat ≤ 0x7FFF then [.openBusRead a] else [] := by
  unfold Bus.readDiags Bus.target decodeAddr
  split <;> rename_i h <;> revert h <;> (repeat' split) <;> simp <;> omega

/-- The three mutable stores after a bus write. -/
theorem Bus.write_ram (b : Bus) (a : Addr) (v : Byte) :
    (b.write a v).ram = match b.target a with | .ram i => Store.write b.ram i v | _ => b.ram := by
  unfold Bus.write; cases b.target a <;> rfl

theorem Bus.write_ppuStub (b : Bus) (a : Addr) (v : Byte) :
    (b.write a v).ppuStub = match b.target a with | .ppu i => Store.write b.ppuStub i v | _ => b.ppuStub := by
  unfold Bus.write; cases b.target a <;> rfl

theorem Bus.write_ioStub (b : Bus) (a : Addr) (v : Byte) :
    (b.write a v).ioStub = match b.target a with | .io i => Store.write b.ioStub i v | _ => b.ioStub := by
  unfold Bus.write; cases b.target a <;> rfl

/-- A bus write reads as before at every address that decodes elsewhere. -/
theorem Bus.read_write_other (b : Bus) (a c : Addr) (v : Byte) (h : b.target c ≠ b.target a) :
    (b.write a v).read c = b.read c := by
  unfold Bus.read
  rw [Bus.write_target, Bus.write_ram, Bus.write_ppuStub, Bus.write_ioStub, Bus.write_prg]
  cases ha : b.target a <;> cases hc : b.target c <;> simp only [] <;>
    exact Store.read_write_other _ _ _ _ (fun e => h (by rw [ha, hc, e]))

/-- A bus write to RAM or a stub is read back at every address that decodes to the same cell. -/
theorem Bus.read_write_same (b : Bus) (a c : Addr) (v : Byte) (hw : Memory.wf b) (h : b.target c = b.target a)
    (hs : ∀ i, b.target a ≠ .rom i) (hu : b.target a ≠ .unmapped) : (b.write a v).read c = v := by
  simp only [Memory.wf, Bool.and_eq_true, Store.wf] at hw
  unfold Bus.read
  rw [Bus.write_target, h, Bus.write_ram, Bus.write_ppuStub, Bus.write_ioStub]
  cases ha : b.target a with
  | ram i => exact Store.read_write_same _ 0 _ i v hw.1.1.1.1
  | ppu i => exact Store.read_write_same _ 0 _ i v hw.1.1.1.2
  | io i => exact Store.read_write_same _ 0 _ i v hw.1.1.2
  | rom i => exact absurd ha (hs i)
  | unmapped => exact absurd ha hu

/-- Every bus write keeps the canonical form. -/
theorem Memory.wf_write (b : Bus) (a : Addr) (v : Byte) (hw : Memory.wf b) : Memory.wf (b.write a v) := by
  simp only [Memory.wf, Bool.and_eq_true] at hw
  obtain ⟨⟨⟨⟨h1, h2⟩, h3⟩, h4⟩, h5⟩ := hw
  unfold Bus.write
  split <;> simp only [Memory.wf, Bool.and_eq_true] <;> refine ⟨⟨⟨⟨?_, ?_⟩, ?_⟩, h4⟩, h5⟩ <;> try assumption
  next e => exact Store.wf_write _ _ _ v h1 (decodeAddr_ram_lt _ _ _ e)
  next e => exact Store.wf_write _ _ _ v h2 (decodeAddr_ppu_lt _ _ _ e)
  next e => exact Store.wf_write _ _ _ v h3 (decodeAddr_io_lt _ _ _ e)

/-- The bus of `State.reset` is in canonical form. -/
theorem Memory.wf_blank : Memory.wf Bus.blank := by decide

end Sys2Proof.Machine
end

