-- ==== Sys2Proof/Laws/State.lean ====
section
/-! SUPPORT. One lemma per field per update of the state, so that no later proof unfolds a record update. -/

namespace Sys2Proof.Machine

@[simp] theorem State.setA_a (s : State) (v : Byte) : (s.setA v).a = v := rfl
@[simp] theorem State.setA_x (s : State) (v : Byte) : (s.setA v).x = s.x := rfl
@[simp] theorem State.setA_y (s : State) (v : Byte) : (s.setA v).y = s.y := rfl
@[simp] theorem State.setA_sp (s : State) (v : Byte) : (s.setA v).sp = s.sp := rfl
@[simp] theorem State.setA_p (s : State) (v : Byte) : (s.setA v).p = s.p := rfl
@[simp] theorem State.setA_pc (s : State) (v : Byte) : (s.setA v).pc = s.pc := rfl
@[simp] theorem State.setA_run (s : State) (v : Byte) : (s.setA v).run = s.run := rfl
@[simp] theorem State.setA_bus (s : State) (v : Byte) : (s.setA v).bus = s.bus := rfl
@[simp] theorem State.setA_result (s : State) (v : Byte) : (s.setA v).result = s.result := rfl
@[simp] theorem State.setA_trace (s : State) (v : Byte) : (s.setA v).trace = s.trace := rfl

@[simp] theorem State.setX_a (s : State) (v : Byte) : (s.setX v).a = s.a := rfl
@[simp] theorem State.setX_x (s : State) (v : Byte) : (s.setX v).x = v := rfl
@[simp] theorem State.setX_y (s : State) (v : Byte) : (s.setX v).y = s.y := rfl
@[simp] theorem State.setX_sp (s : State) (v : Byte) : (s.setX v).sp = s.sp := rfl
@[simp] theorem State.setX_p (s : State) (v : Byte) : (s.setX v).p = s.p := rfl
@[simp] theorem State.setX_pc (s : State) (v : Byte) : (s.setX v).pc = s.pc := rfl
@[simp] theorem State.setX_run (s : State) (v : Byte) : (s.setX v).run = s.run := rfl
@[simp] theorem State.setX_bus (s : State) (v : Byte) : (s.setX v).bus = s.bus := rfl
@[simp] theorem State.setX_result (s : State) (v : Byte) : (s.setX v).result = s.result := rfl
@[simp] theorem State.setX_trace (s : State) (v : Byte) : (s.setX v).trace = s.trace := rfl

@[simp] theorem State.setY_a (s : State) (v : Byte) : (s.setY v).a = s.a := rfl
@[simp] theorem State.setY_x (s : State) (v : Byte) : (s.setY v).x = s.x := rfl
@[simp] theorem State.setY_y (s : State) (v : Byte) : (s.setY v).y = v := rfl
@[simp] theorem State.setY_sp (s : State) (v : Byte) : (s.setY v).sp = s.sp := rfl
@[simp] theorem State.setY_p (s : State) (v : Byte) : (s.setY v).p = s.p := rfl
@[simp] theorem State.setY_pc (s : State) (v : Byte) : (s.setY v).pc = s.pc := rfl
@[simp] theorem State.setY_run (s : State) (v : Byte) : (s.setY v).run = s.run := rfl
@[simp] theorem State.setY_bus (s : State) (v : Byte) : (s.setY v).bus = s.bus := rfl
@[simp] theorem State.setY_result (s : State) (v : Byte) : (s.setY v).result = s.result := rfl
@[simp] theorem State.setY_trace (s : State) (v : Byte) : (s.setY v).trace = s.trace := rfl

@[simp] theorem State.setSp_a (s : State) (v : Byte) : (s.setSp v).a = s.a := rfl
@[simp] theorem State.setSp_x (s : State) (v : Byte) : (s.setSp v).x = s.x := rfl
@[simp] theorem State.setSp_y (s : State) (v : Byte) : (s.setSp v).y = s.y := rfl
@[simp] theorem State.setSp_sp (s : State) (v : Byte) : (s.setSp v).sp = v := rfl
@[simp] theorem State.setSp_p (s : State) (v : Byte) : (s.setSp v).p = s.p := rfl
@[simp] theorem State.setSp_pc (s : State) (v : Byte) : (s.setSp v).pc = s.pc := rfl
@[simp] theorem State.setSp_run (s : State) (v : Byte) : (s.setSp v).run = s.run := rfl
@[simp] theorem State.setSp_bus (s : State) (v : Byte) : (s.setSp v).bus = s.bus := rfl
@[simp] theorem State.setSp_result (s : State) (v : Byte) : (s.setSp v).result = s.result := rfl
@[simp] theorem State.setSp_trace (s : State) (v : Byte) : (s.setSp v).trace = s.trace := rfl

@[simp] theorem State.setP_a (s : State) (v : Byte) : (s.setP v).a = s.a := rfl
@[simp] theorem State.setP_x (s : State) (v : Byte) : (s.setP v).x = s.x := rfl
@[simp] theorem State.setP_y (s : State) (v : Byte) : (s.setP v).y = s.y := rfl
@[simp] theorem State.setP_sp (s : State) (v : Byte) : (s.setP v).sp = s.sp := rfl
@[simp] theorem State.setP_p (s : State) (v : Byte) : (s.setP v).p = v := rfl
@[simp] theorem State.setP_pc (s : State) (v : Byte) : (s.setP v).pc = s.pc := rfl
@[simp] theorem State.setP_run (s : State) (v : Byte) : (s.setP v).run = s.run := rfl
@[simp] theorem State.setP_bus (s : State) (v : Byte) : (s.setP v).bus = s.bus := rfl
@[simp] theorem State.setP_result (s : State) (v : Byte) : (s.setP v).result = s.result := rfl
@[simp] theorem State.setP_trace (s : State) (v : Byte) : (s.setP v).trace = s.trace := rfl

@[simp] theorem State.setPc_a (s : State) (v : Addr) : (s.setPc v).a = s.a := rfl
@[simp] theorem State.setPc_x (s : State) (v : Addr) : (s.setPc v).x = s.x := rfl
@[simp] theorem State.setPc_y (s : State) (v : Addr) : (s.setPc v).y = s.y := rfl
@[simp] theorem State.setPc_sp (s : State) (v : Addr) : (s.setPc v).sp = s.sp := rfl
@[simp] theorem State.setPc_p (s : State) (v : Addr) : (s.setPc v).p = s.p := rfl
@[simp] theorem State.setPc_pc (s : State) (v : Addr) : (s.setPc v).pc = v := rfl
@[simp] theorem State.setPc_run (s : State) (v : Addr) : (s.setPc v).run = s.run := rfl
@[simp] theorem State.setPc_bus (s : State) (v : Addr) : (s.setPc v).bus = s.bus := rfl
@[simp] theorem State.setPc_result (s : State) (v : Addr) : (s.setPc v).result = s.result := rfl
@[simp] theorem State.setPc_trace (s : State) (v : Addr) : (s.setPc v).trace = s.trace := rfl

@[simp] theorem State.setRun_a (s : State) (v : RunState) : (s.setRun v).a = s.a := rfl
@[simp] theorem State.setRun_x (s : State) (v : RunState) : (s.setRun v).x = s.x := rfl
@[simp] theorem State.setRun_y (s : State) (v : RunState) : (s.setRun v).y = s.y := rfl
@[simp] theorem State.setRun_sp (s : State) (v : RunState) : (s.setRun v).sp = s.sp := rfl
@[simp] theorem State.setRun_p (s : State) (v : RunState) : (s.setRun v).p = s.p := rfl
@[simp] theorem State.setRun_pc (s : State) (v : RunState) : (s.setRun v).pc = s.pc := rfl
@[simp] theorem State.setRun_run (s : State) (v : RunState) : (s.setRun v).run = v := rfl
@[simp] theorem State.setRun_bus (s : State) (v : RunState) : (s.setRun v).bus = s.bus := rfl
@[simp] theorem State.setRun_result (s : State) (v : RunState) : (s.setRun v).result = s.result := rfl
@[simp] theorem State.setRun_trace (s : State) (v : RunState) : (s.setRun v).trace = s.trace := rfl

@[simp] theorem State.setBus_a (s : State) (v : Bus) : (s.setBus v).a = s.a := rfl
@[simp] theorem State.setBus_x (s : State) (v : Bus) : (s.setBus v).x = s.x := rfl
@[simp] theorem State.setBus_y (s : State) (v : Bus) : (s.setBus v).y = s.y := rfl
@[simp] theorem State.setBus_sp (s : State) (v : Bus) : (s.setBus v).sp = s.sp := rfl
@[simp] theorem State.setBus_p (s : State) (v : Bus) : (s.setBus v).p = s.p := rfl
@[simp] theorem State.setBus_pc (s : State) (v : Bus) : (s.setBus v).pc = s.pc := rfl
@[simp] theorem State.setBus_run (s : State) (v : Bus) : (s.setBus v).run = s.run := rfl
@[simp] theorem State.setBus_bus (s : State) (v : Bus) : (s.setBus v).bus = v := rfl
@[simp] theorem State.setBus_result (s : State) (v : Bus) : (s.setBus v).result = s.result := rfl
@[simp] theorem State.setBus_trace (s : State) (v : Bus) : (s.setBus v).trace = s.trace := rfl

@[simp] theorem State.setResult_a (s : State) (v : Option StepResult) : (s.setResult v).a = s.a := rfl
@[simp] theorem State.setResult_x (s : State) (v : Option StepResult) : (s.setResult v).x = s.x := rfl
@[simp] theorem State.setResult_y (s : State) (v : Option StepResult) : (s.setResult v).y = s.y := rfl
@[simp] theorem State.setResult_sp (s : State) (v : Option StepResult) : (s.setResult v).sp = s.sp := rfl
@[simp] theorem State.setResult_p (s : State) (v : Option StepResult) : (s.setResult v).p = s.p := rfl
@[simp] theorem State.setResult_pc (s : State) (v : Option StepResult) : (s.setResult v).pc = s.pc := rfl
@[simp] theorem State.setResult_run (s : State) (v : Option StepResult) : (s.setResult v).run = s.run := rfl
@[simp] theorem State.setResult_bus (s : State) (v : Option StepResult) : (s.setResult v).bus = s.bus := rfl
@[simp] theorem State.setResult_result (s : State) (v : Option StepResult) : (s.setResult v).result = v := rfl
@[simp] theorem State.setResult_trace (s : State) (v : Option StepResult) : (s.setResult v).trace = s.trace := rfl

@[simp] theorem State.log_a (s : State) (es : List Diagnostic) : (s.log es).a = s.a := rfl
@[simp] theorem State.log_x (s : State) (es : List Diagnostic) : (s.log es).x = s.x := rfl
@[simp] theorem State.log_y (s : State) (es : List Diagnostic) : (s.log es).y = s.y := rfl
@[simp] theorem State.log_sp (s : State) (es : List Diagnostic) : (s.log es).sp = s.sp := rfl
@[simp] theorem State.log_p (s : State) (es : List Diagnostic) : (s.log es).p = s.p := rfl
@[simp] theorem State.log_pc (s : State) (es : List Diagnostic) : (s.log es).pc = s.pc := rfl
@[simp] theorem State.log_run (s : State) (es : List Diagnostic) : (s.log es).run = s.run := rfl
@[simp] theorem State.log_bus (s : State) (es : List Diagnostic) : (s.log es).bus = s.bus := rfl
@[simp] theorem State.log_result (s : State) (es : List Diagnostic) : (s.log es).result = s.result := rfl
@[simp] theorem State.log_trace (s : State) (es : List Diagnostic) : (s.log es).trace = s.trace ++ es := rfl

/-- Logging nothing changes nothing. -/
@[simp] theorem State.log_nil (s : State) : s.log [] = s := by simp [State.log]

/-- Logging twice is logging once. -/
@[simp] theorem State.log_log (s : State) (es fs : List Diagnostic) : (s.log es).log fs = s.log (es ++ fs) := by
  simp [State.log]

@[simp] theorem State.setA_self (s : State) : s.setA s.a = s := rfl
@[simp] theorem State.setX_self (s : State) : s.setX s.x = s := rfl
@[simp] theorem State.setY_self (s : State) : s.setY s.y = s := rfl
@[simp] theorem State.setSp_self (s : State) : s.setSp s.sp = s := rfl
@[simp] theorem State.setP_self (s : State) : s.setP s.p = s := rfl
@[simp] theorem State.setPc_self (s : State) : s.setPc s.pc = s := rfl
@[simp] theorem State.setRun_self (s : State) : s.setRun s.run = s := rfl
@[simp] theorem State.setBus_self (s : State) : s.setBus s.bus = s := rfl
@[simp] theorem State.setResult_self (s : State) : s.setResult s.result = s := rfl

/-- Writing one general register leaves the others. -/
theorem State.reg_setReg (s : State) (r q : Reg) (v : Byte) :
    (s.setReg r v).reg q = if q = r then v else s.reg q := by
  cases r <;> cases q <;> rfl

@[simp] theorem State.setReg_sp (s : State) (r : Reg) (v : Byte) : (s.setReg r v).sp = s.sp := by cases r <;> rfl
@[simp] theorem State.setReg_p (s : State) (r : Reg) (v : Byte) : (s.setReg r v).p = s.p := by cases r <;> rfl
@[simp] theorem State.setReg_pc (s : State) (r : Reg) (v : Byte) : (s.setReg r v).pc = s.pc := by cases r <;> rfl
@[simp] theorem State.setReg_run (s : State) (r : Reg) (v : Byte) : (s.setReg r v).run = s.run := by cases r <;> rfl
@[simp] theorem State.setReg_bus (s : State) (r : Reg) (v : Byte) : (s.setReg r v).bus = s.bus := by cases r <;> rfl
@[simp] theorem State.setReg_result (s : State) (r : Reg) (v : Byte) : (s.setReg r v).result = s.result := by cases r <;> rfl
@[simp] theorem State.setReg_trace (s : State) (r : Reg) (v : Byte) : (s.setReg r v).trace = s.trace := by cases r <;> rfl

@[simp] theorem State.setRegZN_sp (s : State) (r : Reg) (v : Byte) : (s.setRegZN r v).sp = s.sp := by cases r <;> rfl
@[simp] theorem State.setRegZN_pc (s : State) (r : Reg) (v : Byte) : (s.setRegZN r v).pc = s.pc := by cases r <;> rfl
@[simp] theorem State.setRegZN_run (s : State) (r : Reg) (v : Byte) : (s.setRegZN r v).run = s.run := by cases r <;> rfl
@[simp] theorem State.setRegZN_bus (s : State) (r : Reg) (v : Byte) : (s.setRegZN r v).bus = s.bus := by cases r <;> rfl
@[simp] theorem State.setRegZN_result (s : State) (r : Reg) (v : Byte) : (s.setRegZN r v).result = s.result := by cases r <;> rfl
@[simp] theorem State.setRegZN_trace (s : State) (r : Reg) (v : Byte) : (s.setRegZN r v).trace = s.trace := by cases r <;> rfl
@[simp] theorem State.setRegZN_p (s : State) (r : Reg) (v : Byte) : (s.setRegZN r v).p = setZN v s.p := by cases r <;> rfl

end Sys2Proof.Machine
end

