-- ==== Sys2Proof/Laws/Ops.lean ====
section
/-! SUPPORT. What the shared operations do to every field: bus access, the stack, fetches and the resolver. -/

namespace Sys2Proof.Machine

/-- A bus access is logged by its address alone: only Unmapped reads are. -/
theorem Bus.readDiags_nil (b : Bus) (a : Addr) (h : a.toNat < 0x4018 ∨ 0x8000 ≤ a.toNat) : b.readDiags a = [] := by
  rw [Bus.readDiags_eq, if_neg (by omega)]

/-- A write below the Unmapped window is not logged. -/
theorem Bus.writeDiags_nil (b : Bus) (a : Addr) (h : a.toNat < 0x4018) : b.writeDiags a = [] := by
  unfold Bus.writeDiags Bus.target decodeAddr
  split <;> rename_i h' <;> revert h' <;> (repeat' split) <;> first | rfl | (simp; done) | (intros; omega)

/-- A zero-page address is its byte. -/
@[simp] theorem zeroPage_toNat (z : Byte) : (zeroPage z).toNat = z.toNat := by
  simp only [zeroPage, BitVec.toNat_setWidth]; omega

/-- A stack address is 0x0100 plus the stack pointer (R22). -/
@[simp] theorem stackAddr_toNat (sp : Byte) : (stackAddr sp).toNat = 0x0100 + sp.toNat := by
  simp [stackAddr, Config.stackPage]; omega

/-- A read that logs nothing changes nothing. -/
@[simp] theorem State.afterRead_zeroPage (s : State) (z : Byte) : s.afterRead (zeroPage z) = s := by
  rw [State.afterRead, Bus.readDiags_nil _ _ (by have := z.isLt; simp; omega), State.log_nil]

@[simp] theorem State.afterRead_stackAddr (s : State) (sp : Byte) : s.afterRead (stackAddr sp) = s := by
  rw [State.afterRead, Bus.readDiags_nil _ _ (by have := sp.isLt; simp; omega), State.log_nil]

theorem State.afterRead_rom (s : State) (a : Addr) (h : 0x8000 ≤ a.toNat) : s.afterRead a = s := by
  rw [State.afterRead, Bus.readDiags_nil _ _ (.inr h), State.log_nil]

/-- Reading a pointer in the zero page changes nothing. -/
@[simp] theorem State.afterZpWord_eq (s : State) (z : Byte) : s.afterZpWord z = s := by simp [State.afterZpWord]

/-- The vectors lie in ROM, so reading one changes nothing. -/
@[simp] theorem State.afterReadWord_resetVector (s : State) : s.afterReadWord Config.resetVector = s := by
  rw [State.afterReadWord, State.afterRead_rom _ _ (by decide), State.afterRead_rom _ _ (by decide)]

@[simp] theorem State.afterReadWord_brkVector (s : State) : s.afterReadWord Config.brkVector = s := by
  rw [State.afterReadWord, State.afterRead_rom _ _ (by decide), State.afterRead_rom _ _ (by decide)]

/-- The resolver changes no field of the state: its pointer reads stay in the zero page. -/
@[simp] theorem resolve_state (m : MemOperand) (s : State) : (resolve m s).state = s := by
  cases m <;> simp [resolve, indexed]

/-- A push writes one stack byte and moves SP (R13). -/
theorem State.push_eq (s : State) (v : Byte) :
    s.push v = { s with bus := s.bus.write (stackAddr s.sp) v, sp := s.sp - 1 } := by
  have h : s.bus.writeDiags (stackAddr s.sp) = [] := Bus.writeDiags_nil _ _ (by have := s.sp.isLt; simp; omega)
  simp [State.push, State.memWrite, h, State.setSp, State.setBus]

/-- A pull only moves SP (R13). -/
@[simp] theorem State.afterPull_eq (s : State) : s.afterPull = s.setSp (s.sp + 1) := by simp [State.afterPull]

/-- Two stack addresses decode to the same cell only for the same SP. -/
theorem Bus.target_stackAddr (b : Bus) (sp : Byte) : b.target (stackAddr sp) = .ram (0x0100 + sp.toNat) := by
  have h : (stackAddr sp).toNat ≤ 0x1FFF := by have := sp.isLt; simp; omega
  have hm : (stackAddr sp &&& 0x07FF).toNat = 0x0100 + sp.toNat := by
    have := sp.isLt
    rw [BitVec.toNat_and, stackAddr_toNat]
    show (0x0100 + sp.toNat) &&& (2 ^ 11 - 1) = _
    rw [Nat.and_two_pow_sub_one_eq_mod]; omega
  rw [Bus.target, decodeAddr, if_pos h, hm]

/-- A stack write is read back at its own stack address. -/
theorem Bus.read_write_stack_same (b : Bus) (sp v : Byte) (hw : Memory.wf b) :
    (b.write (stackAddr sp) v).read (stackAddr sp) = v :=
  Bus.read_write_same b _ _ v hw rfl (by simp [Bus.target_stackAddr]) (by simp [Bus.target_stackAddr])

/-- A stack write leaves every other stack byte. -/
theorem Bus.read_write_stack_other (b : Bus) (sp sp' v : Byte) (h : sp' ≠ sp) :
    (b.write (stackAddr sp) v).read (stackAddr sp') = b.read (stackAddr sp') :=
  Bus.read_write_other b _ _ v (by
    simp only [Bus.target_stackAddr, ne_eq, Target.ram.injEq, Nat.add_left_cancel_iff]
    exact fun e => h (BitVec.eq_of_toNat_eq e))

/-- A word's value (R10). -/
theorem word_toNat (lo hi : Byte) : (word lo hi).toNat = lo.toNat + 256 * hi.toNat := by
  have := lo.isLt
  simp only [word, BitVec.toNat_append, Nat.shiftLeft_eq]
  rw [Nat.mul_comm, ← Nat.two_pow_add_eq_or_of_lt (by omega)]; omega

/-- The low byte's value (R10). -/
theorem loByte_toNat (a : Addr) : (loByte a).toNat = a.toNat % 256 := by simp [loByte]

/-- The high byte's value (R10). -/
theorem hiByte_toNat (a : Addr) : (hiByte a).toNat = a.toNat / 256 := by
  simp [hiByte, Nat.shiftRight_eq_div_pow]; omega

/-- The two bytes of a word make the word. -/
@[simp] theorem word_loByte_hiByte (a : Addr) : word (loByte a) (hiByte a) = a := by
  apply BitVec.eq_of_toNat_eq
  rw [word_toNat, loByte_toNat, hiByte_toNat]; omega

/-- A word gives back its bytes. -/
@[simp] theorem loByte_word (lo hi : Byte) : loByte (word lo hi) = lo := by
  apply BitVec.eq_of_toNat_eq
  have := lo.isLt
  rw [loByte_toNat, word_toNat]; omega

@[simp] theorem hiByte_word (lo hi : Byte) : hiByte (word lo hi) = hi := by
  apply BitVec.eq_of_toNat_eq
  have := lo.isLt
  rw [hiByte_toNat, word_toNat]; omega

end Sys2Proof.Machine
end

