-- ==== Sys2Proof/Laws/Decode.lean ====
section
/-! SUPPORT. Decoding by the number of operand bytes, and the rows of the illegal bytes. -/

namespace Sys2Proof

open Machine

/-- An opcode with no operand byte decodes alone (R107). -/
theorem decode_zero (op : Byte) (rest : List Byte) (h : (descriptor op).mode.operandBytes = 0) :
    decode (op :: rest) = .ok (instrOf op 0 0, rest) := by
  simp [decode, h]

/-- An opcode with one operand byte decodes with the byte after it (R107). -/
theorem decode_one (op b1 : Byte) (rest : List Byte) (h : (descriptor op).mode.operandBytes = 1) :
    decode (op :: b1 :: rest) = .ok (instrOf op b1 0, rest) := by
  simp [decode, h]

/-- An opcode with two operand bytes decodes with the two bytes after it (R107). -/
theorem decode_two (op b1 b2 : Byte) (rest : List Byte) (h : (descriptor op).mode.operandBytes = 2) :
    decode (op :: b1 :: b2 :: rest) = .ok (instrOf op b1 b2, rest) := by
  simp [decode, h]

/-- A mode has at most two operand bytes (R102). -/
theorem AddrMode.operandBytes_le (m : AddrMode) : m.operandBytes ≤ 2 := by cases m <;> decide

/-- The row of an illegal byte (R110). -/
theorem illegal_row : ∀ op ∈ illegalBytes, descriptor op = .illegal ∧ instrOf op 0 0 = .illegal op := by
  decide +kernel

/-- The bytes of a word are the two bytes it was made of. -/
theorem word_bytes (b1 b2 : Byte) : [loByte (word b1 b2), hiByte (word b1 b2)] = [b1, b2] := by simp

/-- The instruction the table makes from opcode `n`: it has that opcode, it is well formed, and its operand bytes are
those its mode takes (R107, R108). -/
theorem instrOf_row (b1 b2 : Byte) (n : Nat) (h : n < 256) :
    opcode (instrOf (BitVec.ofNat 8 n) b1 b2) = BitVec.ofNat 8 n ∧ (instrOf (BitVec.ofNat 8 n) b1 b2).wellFormed ∧
      (instrOf (BitVec.ofNat 8 n) b1 b2).operand.bytes =
        [b1, b2].take (descriptor (BitVec.ofNat 8 n)).mode.operandBytes := by
  interval_cases n <;> first | exact ⟨rfl, rfl, rfl⟩ | exact ⟨rfl, rfl, word_bytes b1 b2⟩

/-- The same for an opcode byte. -/
theorem instrOf_spec (op b1 b2 : Byte) :
    opcode (instrOf op b1 b2) = op ∧ (instrOf op b1 b2).wellFormed ∧
      (instrOf op b1 b2).operand.bytes = [b1, b2].take (descriptor op).mode.operandBytes := by
  have h := instrOf_row b1 b2 op.toNat op.isLt
  rwa [BitVec.ofNat_toNat, BitVec.setWidth_eq] at h

end Sys2Proof
end

