-- ==== Sys2Proof/Laws/Fetch.lean ====
section
/-! SUPPORT. What fetching does: PC moves past the bytes, each read is logged, nothing else changes. -/

namespace Sys2Proof.Machine

/-- A read changes nothing but the trace, and only by its own diagnostic (R60). -/
theorem State.afterRead_eq (s : State) (a : Addr) : s.afterRead a = { s with trace := s.trace ++ s.bus.readDiags a } :=
  rfl

/-- The fetch of one byte (R131). -/
theorem State.afterFetch_eq (s : State) :
    s.afterFetch = { s with pc := s.pc + 1, trace := s.trace ++ s.bus.readDiags s.pc } := rfl

/-- The fetch of `n` bytes: the reads are those of PC, PC + 1 and so on (R131). -/
theorem State.afterFetches_eq (n : Nat) (s : State) :
    State.afterFetches n s = { s with
      pc := s.pc + BitVec.ofNat 16 n
      trace := s.trace ++ (List.range n).flatMap (fun k => s.bus.readDiags (s.pc + BitVec.ofNat 16 k)) } := by
  induction n generalizing s with
  | zero => simp [State.afterFetches]
  | succ n ih =>
    have hpc : s.pc + 1 + BitVec.ofNat 16 n = s.pc + BitVec.ofNat 16 (n + 1) := by
      rw [BitVec.add_assoc]; congr 1; rw [Nat.add_comm, BitVec.ofNat_add]; rfl
    have hread (k : Nat) : s.pc + 1 + BitVec.ofNat 16 k = s.pc + BitVec.ofNat 16 (k + 1) := by
      rw [BitVec.add_assoc]; congr 1; rw [Nat.add_comm, BitVec.ofNat_add]; rfl
    rw [State.afterFetches, ih, State.afterFetch_eq]
    simp only [hpc, hread, List.range_succ_eq_map, List.flatMap_cons, List.flatMap_map, List.append_assoc]
    simp

/-- The instruction fetched is the one the decoder reads from the bytes at PC (R107, R130). -/
theorem State.decode_fetched (s : State) : ∃ rest,
    decode [s.bus.read s.pc, s.bus.read (s.pc + 1), s.bus.read (s.pc + 2)] = .ok (s.fetchedInstr, rest) := by
  have h2 : s.pc + 1 + 1 = s.pc + 2 := by rw [BitVec.add_assoc]; rfl
  have hn := AddrMode.operandBytes_le (descriptor s.fetchByte).mode
  unfold State.fetchedInstr
  rcases h : (descriptor s.fetchByte).mode.operandBytes with _ | _ | _ | n
  · exact ⟨_, by simp only [h]; exact decode_zero _ _ h⟩
  · exact ⟨_, by simp only [h]; exact decode_one _ _ _ h⟩
  · exact ⟨_, by simp only [h, ← h2]; exact decode_two _ _ _ _ h⟩
  · omega

/-- The fetched instruction has the opcode at PC and is well formed. -/
theorem State.fetchedInstr_spec (s : State) : opcode s.fetchedInstr = s.bus.read s.pc ∧ s.fetchedInstr.wellFormed := by
  unfold State.fetchedInstr
  dsimp only
  split <;> exact ⟨(instrOf_spec _ _ _).1, (instrOf_spec _ _ _).2.1⟩

/-- The state in which the meaning runs (R130, R155). -/
theorem State.afterInstr_eq (s : State) :
    s.afterInstr = { s with
      pc := s.pc + BitVec.ofNat 16 (descriptor (s.bus.read s.pc)).length
      trace := s.trace ++ (List.range (descriptor (s.bus.read s.pc)).length).flatMap
        (fun k => s.bus.readDiags (s.pc + BitVec.ofNat 16 k)) } :=
  State.afterFetches_eq _ s

/-- The index of a ROM target is inside a ROM of legal size. -/
theorem decodeAddr_rom_lt (n i : Nat) (a : Addr) (hn : prgSizeLegal n) (h : decodeAddr n a = .rom i) : i < n := by
  have hpos : 0 < n := by
    simp only [prgSizeLegal, Config.prgUnit, Bool.or_eq_true, beq_iff_eq] at hn; omega
  simp only [decodeAddr] at h
  repeat (split at h; · cases h)
  injection h with h
  exact h ▸ Nat.mod_lt _ hpos

/-- Placing a byte from outside keeps the canonical form, in every window. -/
theorem Memory.wf_load (b : Bus) (a : Addr) (v : Byte) (hw : Memory.wf b) : Memory.wf (b.load a v) := by
  unfold Bus.load
  split
  next i e =>
    simp only [Memory.wf, CartridgeImage.wf, ByteSeq.wf, Bus.prg, Bool.and_eq_true] at hw ⊢
    obtain ⟨⟨h, ⟨⟨hp, hc⟩, ht⟩⟩, hs⟩ := hw
    exact ⟨⟨h, ⟨⟨Store.wf_write _ _ _ v hp (decodeAddr_rom_lt _ _ _ hs e), hc⟩, ht⟩⟩, hs⟩
  all_goals exact Memory.wf_write b a v hw

/-- Placing an instruction keeps the invariant. -/
theorem State.wf_placeWord (s : State) (nbits w : Nat) (hw : Memory.wf s.bus) : Memory.wf (s.placeWord nbits w).bus := by
  unfold State.placeWord
  exact Memory.wf_load _ _ _ (Memory.wf_load _ _ _ (Memory.wf_load _ _ _ hw))

end Sys2Proof.Machine
end

