-- ==== Sys2Proof/Laws/Exec.lean ====
section
/-! SUPPORT. What each shape of execution answers, and which shape each instruction has: the lemmas a proof about
`exec` cites instead of unfolding a meaning. -/

namespace Sys2Proof.Machine

/-- The end of a step reports the result and changes nothing else. -/
theorem finish_eq (op : Byte) (crossed : Bool) (extra : Nat) (s : State) :
    finish op crossed extra s = .next { s with result := some ⟨cycleTotal op crossed extra, none⟩ } := rfl

/-- A read of an immediate acts on the value (R137). -/
theorem execRead_imm (op v : Byte) (act : Byte → State → State) (s : State) :
    execRead op (.imm v) act s = finish op false 0 (act v s) := rfl

/-- A read of memory acts on the byte at the effective address, once it is read (R134). -/
theorem execRead_mem (op : Byte) (m : MemOperand) (act : Byte → State → State) (s : State) :
    execRead op (.mem m) act s =
      finish op (resolve m s).crossed 0 (act (s.bus.read (resolve m s).ea) (s.afterRead (resolve m s).ea)) := by
  simp [execRead, State.memByte]

/-- A store writes the register at the effective address (R174). -/
theorem execStore_eq (op : Byte) (m : MemOperand) (r : Reg) (s : State) :
    execStore op m r s = finish op (resolve m s).crossed 0 (s.memWrite (resolve m s).ea (s.reg r)) := by
  simp [execStore]

/-- A read-modify-write of A (R260). -/
theorem execModify_acc (op : Byte) (f : Byte → Byte → Byte × Byte) (s : State) :
    execModify op .acc f s = finish op false 0 { s with a := (f s.a s.p).1, p := (f s.a s.p).2 } := rfl

/-- A read-modify-write of memory: one read, then one write of the same address (R155, R260). -/
theorem execModify_mem (op : Byte) (m : MemOperand) (f : Byte → Byte → Byte × Byte) (s : State) :
    execModify op (.mem m) f s =
      finish op (resolve m s).crossed 0
        (((s.afterRead (resolve m s).ea).setP (f (s.bus.read (resolve m s).ea) s.p).2).memWrite (resolve m s).ea
          (f (s.bus.read (resolve m s).ea) s.p).1) := by
  simp [execModify, State.memByte]

/-- The action of each instruction that only loads its operand. -/
def readAction : Mnemonic → Option (Byte → State → State)
  | .lda => some (loadReg .a) | .ldx => some (loadReg .x) | .ldy => some (loadReg .y)
  | .adc => some addToA | .sbc => some subtractFromA
  | .and => some andA | .ora => some orA | .eor => some exclusiveOrA
  | .bit => some testBits
  | .cmp => some (compareReg .a) | .cpx => some (compareReg .x) | .cpy => some (compareReg .y)
  | _ => none

/-- The register each store writes to memory. -/
def storedReg : Mnemonic → Option Reg
  | .sta => some .a | .stx => some .x | .sty => some .y
  | _ => none

/-- The function of each read-modify-write. -/
def modifyFunction : Mnemonic → Option (Byte → Byte → Byte × Byte)
  | .inc => some increment | .dec => some decrement
  | .asl => some shiftLeft | .lsr => some shiftRight | .rol => some rotateLeft | .ror => some rotateRight
  | _ => none

/-- The action of each instruction with no operand. -/
def impliedAction : Mnemonic → Option (State → State)
  | .tax => some (transfer .a .x) | .tay => some (transfer .a .y)
  | .txa => some (transfer .x .a) | .tya => some (transfer .y .a)
  | .tsx => some (fun s => s.setRegZN .x s.sp) | .txs => some (fun s => s.setSp s.x)
  | .pha => some (fun s => s.push s.a) | .php => some (fun s => s.push s.p)
  | .pla => some (fun s => s.afterPull.setRegZN .a s.pulled) | .plp => some (fun s => s.afterPull.setP s.pulled)
  | .inx => some (stepReg .x 1) | .iny => some (stepReg .y 1)
  | .dex => some (stepReg .x (-1)) | .dey => some (stepReg .y (-1))
  | .brk => some (fun s => s.enterVector Config.brkVector) | .rti => some State.leaveVector
  | .rts => some returnFromSubroutine
  | .clc => some (writeFlag .c false) | .cld => some (writeFlag .d false) | .cli => some (writeFlag .i false)
  | .clv => some (writeFlag .v false) | .sec => some (writeFlag .c true) | .sed => some (writeFlag .d true)
  | .sei => some (writeFlag .i true) | .nop => some id
  | _ => none

/-- The flag each branch tests, and the value that takes it. -/
def branchFlag : Mnemonic → Option (Flag × Bool)
  | .bpl => some (.n, false) | .bmi => some (.n, true) | .bvc => some (.v, false) | .bvs => some (.v, true)
  | .bcc => some (.c, false) | .bcs => some (.c, true) | .bne => some (.z, false) | .beq => some (.z, true)
  | _ => none

/-- An instruction that only loads is `execRead` of its operand. -/
theorem exec_read (i : Instr) (act : Byte → State → State) (h : readAction i.mnemonic = some act) :
    ∃ src, i.operand = src.operand ∧ ∀ s, exec i s = execRead (opcode i) src act s := by
  cases i <;> cases h <;>
    dsimp only [Instr.operand] <;>
    first
    | (refine ⟨.mem _, by rfl, ?_⟩; exact fun _ => rfl)
    | (refine ⟨.imm _, by rfl, ?_⟩; exact fun _ => rfl)

/-- A store is `execStore` of its memory operand. -/
theorem exec_store (i : Instr) (r : Reg) (h : storedReg i.mnemonic = some r) :
    ∃ m, i.operand = .memory m ∧ ∀ s, exec i s = execStore (opcode i) m r s := by
  cases i <;> cases h <;>
    exact ⟨_, rfl, fun _ => rfl⟩

/-- A read-modify-write is `execModify` of its place. -/
theorem exec_modify (i : Instr) (f : Byte → Byte → Byte × Byte) (h : modifyFunction i.mnemonic = some f) :
    ∃ place : Place, i.operand = place.operand ∧ ∀ s, exec i s = execModify (opcode i) place f s := by
  cases i <;> cases h <;>
    dsimp only [Instr.operand] <;>
    first
    | (refine ⟨.mem _, by rfl, ?_⟩; exact fun _ => rfl)
    | (refine ⟨.acc, by rfl, ?_⟩; exact fun _ => rfl)

/-- An instruction with no operand is `execImplied` of its action. -/
theorem exec_implied (i : Instr) (act : State → State) (h : impliedAction i.mnemonic = some act) :
    i.operand = .implied ∧ ∀ s, exec i s = execImplied (opcode i) act s := by
  cases i <;> cases h <;>
    exact ⟨rfl, fun _ => rfl⟩

/-- A branch is `execBranch` of its offset, taken when its flag has its value. -/
theorem exec_branch (i : Instr) (f : Flag) (b : Bool) (h : branchFlag i.mnemonic = some (f, b)) :
    ∃ o, i.operand = .relative o ∧ ∀ s, exec i s = execBranch (opcode i) (getFlag f s.p == b) o s := by
  cases i <;> cases h <;> refine ⟨_, rfl, fun s => ?_⟩ <;> simp [exec, opcode] <;> rfl

/-- Every instruction has one of the five shapes, or is a jump, JSR or an illegal byte. -/
theorem instr_shape (i : Instr) :
    (∃ act, readAction i.mnemonic = some act) ∨ (∃ r, storedReg i.mnemonic = some r) ∨
    (∃ f, modifyFunction i.mnemonic = some f) ∨ (∃ act, impliedAction i.mnemonic = some act) ∨
    (∃ f b, branchFlag i.mnemonic = some (f, b)) ∨ (∃ t, i = .jmpAbs t) ∨ (∃ ptr, i = .jmpInd ptr) ∨
    (∃ t, i = .jsr t) ∨ ∃ op, i = .illegal op := by
  cases i <;> simp [Instr.mnemonic, readAction, storedReg, modifyFunction, impliedAction, branchFlag]

end Sys2Proof.Machine
end

