-- ==== Sys2Proof/Laws/Flags.lean ====
section
/-! SUPPORT. What every flag computation does to every flag. -/

namespace Sys2Proof.Machine

/-- Writing one flag gives it the value and leaves the others. -/
@[simp] theorem getFlag_setFlag (f g : Flag) (b : Bool) (p : Byte) :
    getFlag f (setFlag g b p) = if f = g then b else getFlag f p := by
  cases b <;> cases f <;> cases g <;>
    simp [getFlag, setFlag, Flag.mask, Flag.bit]

/-- A status byte is determined by its eight flags. -/
theorem byte_ext_of_flags (p q : Byte) (h : ∀ f, getFlag f p = getFlag f q) : p = q := by
  apply BitVec.eq_of_getLsbD_eq
  intro i hi
  have hc := h .c; have hz := h .z; have hi' := h .i; have hd := h .d
  have hb := h .b; have hr := h .r; have hv := h .v; have hn := h .n
  simp only [getFlag, Flag.bit] at hc hz hi' hd hb hr hv hn
  interval_cases i <;> assumption

/-- Z and N after `SetZN(v)`; every other flag stays. -/
@[simp] theorem getFlag_setZN (f : Flag) (v p : Byte) :
    getFlag f (setZN v p) =
      match f with
      | .z => v == 0
      | .n => v.getLsbD 7
      | _ => getFlag f p := by
  cases f <;> simp [setZN]

end Sys2Proof.Machine
end

