-- ==== Sys2Proof/Laws/Shapes.lean ====
section
/-! SUPPORT. The shapes of execution in the terms of the claims: what each answers, with the operand's byte, its
address and the outputs written out. -/

namespace Sys2Proof.Machine

/-- `SetZN(v)` changes Z and N and no other flag (R26). -/
theorem flagsAre_setZN (v p : Byte) : FlagsAre (setZN v p) p (znOf v) := by
  intro f; cases f <;> simp [znOf, List.lookup] <;> rfl

/-- Writing one flag changes that flag and no other. -/
theorem flagsAre_setFlag (f : Flag) (b : Bool) (p : Byte) : FlagsAre (setFlag f b p) p [(f, b)] := by
  intro g; cases f <;> cases g <;> simp [List.lookup] <;> rfl

/-- An action that reads and writes neither output: it commutes with any change of them (R35, R157). -/
def OutputBlind (act : State → State) : Prop :=
  ∀ (s : State) (r : Option StepResult) (tr : List Diagnostic),
    act { s with result := r, trace := tr } = { act s with result := r, trace := tr }

/-- An action that reads neither output does the same after a log. -/
theorem OutputBlind.after_log (act : State → State) (h : OutputBlind act) (s : State) (es : List Diagnostic) :
    act (s.log es) = { act s with result := s.result, trace := s.trace ++ es } :=
  h s s.result (s.trace ++ es)

/-- A load completes: it acts on the loaded byte, reports the plain result and logs the load (R130, R134). -/
theorem exec_read_loaded (i : Instr) (s : State) (act : Byte → State → State) (h : readAction i.mnemonic = some act)
    (hb : ∀ v, OutputBlind (act v)) :
    ∃ v, loadedByte i.operand s = some v ∧
      exec i s = .next { act v s with result := plainResult i s, trace := s.trace ++ loadDiags i.operand s } := by
  obtain ⟨src, ho, he⟩ := exec_read i act h
  cases src with
  | imm v =>
    refine ⟨v, by rw [ho]; rfl, ?_⟩
    have ht : (act v s).trace = s.trace := by
      have := congrArg State.trace (hb v s s.result s.trace)
      exact this
    rw [he, execRead_imm, finish_eq, plainResult, ho]
    simp only [Source.operand, crosses, loadDiags, effectiveAddr, List.append_nil, ht]
  | mem m =>
    refine ⟨_, by rw [ho]; rfl, ?_⟩
    rw [he, execRead_mem, finish_eq, plainResult, ho, State.afterRead, OutputBlind.after_log _ (hb _)]
    rfl

/-- A store completes: it writes its register at the effective address and logs only the write (R174). -/
theorem exec_store_done (i : Instr) (s : State) (r : Reg) (h : storedReg i.mnemonic = some r) :
    ∃ ea, effectiveAddr i.operand s = some ea ∧
      exec i s = .next { s.done i with bus := s.bus.write ea (s.reg r), trace := s.trace ++ s.bus.writeDiags ea } := by
  obtain ⟨m, ho, he⟩ := exec_store i r h
  refine ⟨_, by rw [ho]; rfl, ?_⟩
  rw [he, execStore_eq, finish_eq, State.done, plainResult, ho]
  rfl

/-- A read-modify-write completes as `Modifies` says, if its function computes the result and the flags (R260). -/
theorem exec_modify_modifies (i : Instr) (s : State) (f : Byte → Byte → Byte × Byte)
    (h : modifyFunction i.mnemonic = some f) (result : Byte → Byte) (flags : Byte → Byte → List (Flag × Bool))
    (hr : ∀ m, (f m s.p).1 = result m) (hf : ∀ m, FlagsAre (f m s.p).2 s.p (flags m (result m))) :
    Modifies i s result flags := by
  obtain ⟨place, ho, he⟩ := exec_modify i f h
  cases place with
  | acc =>
    refine ⟨s.a, _, by rw [ho]; rfl, hf _, .inl ⟨ho, ?_⟩⟩
    rw [he, execModify_acc, finish_eq, State.done, plainResult, ho, hr]; rfl
  | mem m =>
    refine ⟨_, _, by rw [ho]; rfl, hf _, .inr ⟨_, by rw [ho]; rfl, ?_⟩⟩
    rw [he, execModify_mem, finish_eq, State.loaded, plainResult, ho, hr]; rfl

/-- An instruction with no operand completes with its action and the plain result (R135). -/
theorem exec_implied_done (i : Instr) (s : State) (act : State → State) (h : impliedAction i.mnemonic = some act) :
    exec i s = .next { act s with result := plainResult i s } := by
  obtain ⟨ho, he⟩ := exec_implied i act h
  rw [he, execImplied, finish_eq, plainResult, ho]; rfl

end Sys2Proof.Machine
end

