-- ==== Sys2Proof/Laws/Effects.lean ====
section
/-! SUPPORT. Said once: every instruction answers a next state, which keeps the engine state, and whose bus is the old
one after writes at exactly the addresses of `storedTo`. -/

namespace Sys2Proof.Machine

/-- The bus after a list of writes, in order. -/
def Bus.writes (b : Bus) (ws : List (Addr × Byte)) : Bus := ws.foldl (fun b w => b.write w.1 w.2) b

@[simp] theorem Bus.writes_nil (b : Bus) : b.writes [] = b := rfl

@[simp] theorem Bus.writes_cons (b : Bus) (w : Addr × Byte) (ws : List (Addr × Byte)) :
    b.writes (w :: ws) = (b.write w.1 w.2).writes ws := rfl

/-- Writes leave the image. -/
@[simp] theorem Bus.writes_image (b : Bus) (ws : List (Addr × Byte)) : (b.writes ws).image = b.image := by
  induction ws generalizing b with
  | nil => rfl
  | cons w ws ih => simp [ih]

/-- Writes keep the canonical form. -/
theorem Memory.wf_writes (b : Bus) (ws : List (Addr × Byte)) (h : Memory.wf b) : Memory.wf (b.writes ws) := by
  induction ws generalizing b with
  | nil => exact h
  | cons w ws ih => exact ih _ (Memory.wf_write _ _ _ h)

/-- Writes read as before at every address that decodes to none of the written cells. -/
theorem Bus.read_writes_other (b : Bus) (ws : List (Addr × Byte)) (c : Addr)
    (h : ∀ a ∈ ws.map Prod.fst, b.target c ≠ b.target a) : (b.writes ws).read c = b.read c := by
  induction ws generalizing b with
  | nil => rfl
  | cons w ws ih =>
    rw [Bus.writes_cons, ih _ (fun a ha => by simpa using h a (List.mem_cons_of_mem _ ha))]
    exact Bus.read_write_other _ _ _ _ (h _ (by simp))

/-- What an action may do to the engine state and the bus: writes at the addresses `at_`, in order. -/
def WritesAt (at_ : List Addr) (s t : State) : Prop :=
  t.run = s.run ∧ ∃ ws : List (Addr × Byte), t.bus = s.bus.writes ws ∧ ws.map Prod.fst = at_

/-- An action that writes nothing. -/
theorem WritesAt.none {s t : State} (hr : t.run = s.run) (hb : t.bus = s.bus) : WritesAt [] s t := ⟨hr, [], hb, rfl⟩

/-- The action of a load reads neither output and writes nothing to the bus, SP or PC. -/
theorem readAction_effect (mn : Mnemonic) (act : Byte → State → State) (h : readAction mn = some act) (v : Byte) :
    OutputBlind (act v) ∧ ∀ s, WritesAt [] s (act v s) ∧ (act v s).sp = s.sp ∧ (act v s).pc = s.pc := by
  cases mn <;> cases h <;> exact ⟨fun _ _ _ => rfl, fun _ => ⟨.none rfl rfl, rfl, rfl⟩⟩

/-- The stack bytes an action with no operand stores to. -/
def impliedStores (mn : Mnemonic) (s : State) : List Addr :=
  match mn with
  | .pha | .php => [stackAddr s.sp]
  | .brk => [stackAddr s.sp, stackAddr (s.sp - 1), stackAddr (s.sp - 2)]
  | _ => []

/-- The BRK entry writes three stack bytes. -/
theorem enterVector_writes (s : State) :
    WritesAt [stackAddr s.sp, stackAddr (s.sp - 1), stackAddr (s.sp - 2)] s (s.enterVector Config.brkVector) := by
  refine ⟨by simp [State.enterVector, State.pushWord, State.push_eq],
    [(stackAddr s.sp, hiByte s.pc), (stackAddr (s.sp - 1), loByte s.pc), (stackAddr (s.sp - 2), s.p)], ?_, rfl⟩
  have h : s.sp - 2 = s.sp - 1 - 1 := by rw [BitVec.sub_sub]; rfl
  rw [h]
  simp [State.enterVector, State.pushWord, State.push_eq]

/-- The action of an instruction with no operand writes the stack bytes it stores to and no others. -/
theorem impliedAction_writes (mn : Mnemonic) (act : State → State) (h : impliedAction mn = some act) (s : State) :
    WritesAt (impliedStores mn s) s (act s) := by
  cases mn <;> cases h
  case pha => exact ⟨by simp [State.push_eq], [(stackAddr s.sp, s.a)], by simp [State.push_eq], rfl⟩
  case php => exact ⟨by simp [State.push_eq], [(stackAddr s.sp, s.p)], by simp [State.push_eq], rfl⟩
  case pla => exact .none (by simp) (by simp)
  case plp => exact .none (by simp) (by simp)
  case brk => exact enterVector_writes s
  case rti => exact .none (by simp [State.leaveVector, State.afterPullWord]) (by simp [State.leaveVector, State.afterPullWord])
  case rts =>
    exact .none (by simp [returnFromSubroutine, State.afterPullWord]) (by simp [returnFromSubroutine, State.afterPullWord])
  all_goals exact .none rfl rfl

/-- Every instruction answers a next state with the engine state kept and the bus written at `storedTo` alone. -/
theorem exec_effect (i : Instr) (s : State) : ∃ t, exec i s = .next t ∧ WritesAt (storedTo i s) s t := by
  rcases instr_shape i with ⟨act, h⟩ | ⟨r, h⟩ | ⟨f, h⟩ | ⟨act, h⟩ | ⟨f, b, h⟩ | ⟨t, rfl⟩ | ⟨t, rfl⟩ | ⟨t, rfl⟩ | ⟨op, rfl⟩
  · obtain ⟨v, -, hx⟩ := exec_read_loaded i s act h (fun v => (readAction_effect _ _ h v).1)
    have hs : storedTo i s = [] := by unfold storedTo; revert h; cases i.mnemonic <;> simp [readAction]
    exact ⟨_, hx, hs ▸ ((readAction_effect _ _ h v).2 s).1⟩
  · obtain ⟨ea, he, hx⟩ := exec_store_done i s r h
    have hs : storedTo i s = [ea] := by unfold storedTo; revert h; rw [he]; cases i.mnemonic <;> simp [storedReg]
    exact ⟨_, hx, hs ▸ ⟨rfl, [(ea, s.reg r)], rfl, rfl⟩⟩
  · obtain ⟨place, ho, hx⟩ := exec_modify i f h
    have hs : storedTo i s = (effectiveAddr i.operand s).toList := by
      unfold storedTo; revert h; cases i.mnemonic <;> simp [modifyFunction]
    rw [hs, ho]
    cases place with
    | acc => exact ⟨_, (hx s).trans (execModify_acc _ _ _), .none rfl rfl⟩
    | mem m => exact ⟨_, (hx s).trans (execModify_mem _ _ _ _), rfl, [(_, _)], rfl, rfl⟩
  · have hs : storedTo i s = impliedStores i.mnemonic s := by
      unfold storedTo impliedStores; revert h; cases i.mnemonic <;> simp [impliedAction]
    exact ⟨_, exec_implied_done i s act h, hs ▸ impliedAction_writes _ _ h s⟩
  · obtain ⟨o, -, hx⟩ := exec_branch i f b h
    have hs : storedTo i s = [] := by unfold storedTo; revert h; cases i.mnemonic <;> simp [branchFlag]
    rw [hx, hs, execBranch]
    split <;> exact ⟨_, rfl, .none rfl rfl⟩
  · exact ⟨_, rfl, .none rfl rfl⟩
  · exact ⟨_, rfl, .none rfl rfl⟩
  · exact ⟨_, rfl, by simp [State.pushWord, State.push_eq],
      [(stackAddr s.sp, hiByte (s.pc - 1)), (stackAddr (s.sp - 1), loByte (s.pc - 1))],
      by simp [State.pushWord, State.push_eq], rfl⟩
  · exact ⟨_, rfl, .none rfl rfl⟩

end Sys2Proof.Machine
end

