-- ==== Sys2Proof/Laws/PerInstr.lean ====
section
/-! SUPPORT. Facts about every instruction as syntax, one lemma per constructor.
Row: the opcode's row, given the operand's bytes, makes the instruction again.
Length: the operand has as many bytes as the opcode's descriptor asks for. -/

namespace Sys2Proof.Laws

/-- The table's row of the opcode of `i` makes `i` again from its operand bytes, low byte first (R101, R106, R108). -/
def Row.Statement (i : Instr) : Prop :=
  i.wellFormed → instrOf (opcode i) (i.operand.bytes.getD 0 0) (i.operand.bytes.getD 1 0) = i

/-- The operand of `i` has the number of bytes its opcode's mode asks for (R101, R102, R107). -/
def Length.Statement (i : Instr) : Prop :=
  i.wellFormed → i.operand.bytes.length = (descriptor (opcode i)).mode.operandBytes

theorem Row.ldaIndX (z : Byte) : Row.Statement (.ldaIndX z) := fun _ => (rfl : instrOf 0xA1 z 0 = (.ldaIndX z))
theorem Row.ldaZp (z : Byte) : Row.Statement (.ldaZp z) := fun _ => (rfl : instrOf 0xA5 z 0 = (.ldaZp z))
theorem Row.ldaImm (v : Byte) : Row.Statement (.ldaImm v) := fun _ => (rfl : instrOf 0xA9 v 0 = (.ldaImm v))
theorem Row.ldaAbs (a : Addr) : Row.Statement (.ldaAbs a) := fun _ =>
  (rfl : instrOf 0xAD (loByte a) (hiByte a) = .ldaAbs (word (loByte a) (hiByte a))).trans
    (congrArg Instr.ldaAbs (Machine.word_loByte_hiByte a))
theorem Row.ldaIndY (z : Byte) : Row.Statement (.ldaIndY z) := fun _ => (rfl : instrOf 0xB1 z 0 = (.ldaIndY z))
theorem Row.ldaZpX (z : Byte) : Row.Statement (.ldaZpX z) := fun _ => (rfl : instrOf 0xB5 z 0 = (.ldaZpX z))
theorem Row.ldaAbsY (a : Addr) : Row.Statement (.ldaAbsY a) := fun _ =>
  (rfl : instrOf 0xB9 (loByte a) (hiByte a) = .ldaAbsY (word (loByte a) (hiByte a))).trans
    (congrArg Instr.ldaAbsY (Machine.word_loByte_hiByte a))
theorem Row.ldaAbsX (a : Addr) : Row.Statement (.ldaAbsX a) := fun _ =>
  (rfl : instrOf 0xBD (loByte a) (hiByte a) = .ldaAbsX (word (loByte a) (hiByte a))).trans
    (congrArg Instr.ldaAbsX (Machine.word_loByte_hiByte a))
theorem Row.ldxImm (v : Byte) : Row.Statement (.ldxImm v) := fun _ => (rfl : instrOf 0xA2 v 0 = (.ldxImm v))
theorem Row.ldxZp (z : Byte) : Row.Statement (.ldxZp z) := fun _ => (rfl : instrOf 0xA6 z 0 = (.ldxZp z))
theorem Row.ldxAbs (a : Addr) : Row.Statement (.ldxAbs a) := fun _ =>
  (rfl : instrOf 0xAE (loByte a) (hiByte a) = .ldxAbs (word (loByte a) (hiByte a))).trans
    (congrArg Instr.ldxAbs (Machine.word_loByte_hiByte a))
theorem Row.ldxZpY (z : Byte) : Row.Statement (.ldxZpY z) := fun _ => (rfl : instrOf 0xB6 z 0 = (.ldxZpY z))
theorem Row.ldxAbsY (a : Addr) : Row.Statement (.ldxAbsY a) := fun _ =>
  (rfl : instrOf 0xBE (loByte a) (hiByte a) = .ldxAbsY (word (loByte a) (hiByte a))).trans
    (congrArg Instr.ldxAbsY (Machine.word_loByte_hiByte a))
theorem Row.ldyImm (v : Byte) : Row.Statement (.ldyImm v) := fun _ => (rfl : instrOf 0xA0 v 0 = (.ldyImm v))
theorem Row.ldyZp (z : Byte) : Row.Statement (.ldyZp z) := fun _ => (rfl : instrOf 0xA4 z 0 = (.ldyZp z))
theorem Row.ldyAbs (a : Addr) : Row.Statement (.ldyAbs a) := fun _ =>
  (rfl : instrOf 0xAC (loByte a) (hiByte a) = .ldyAbs (word (loByte a) (hiByte a))).trans
    (congrArg Instr.ldyAbs (Machine.word_loByte_hiByte a))
theorem Row.ldyZpX (z : Byte) : Row.Statement (.ldyZpX z) := fun _ => (rfl : instrOf 0xB4 z 0 = (.ldyZpX z))
theorem Row.ldyAbsX (a : Addr) : Row.Statement (.ldyAbsX a) := fun _ =>
  (rfl : instrOf 0xBC (loByte a) (hiByte a) = .ldyAbsX (word (loByte a) (hiByte a))).trans
    (congrArg Instr.ldyAbsX (Machine.word_loByte_hiByte a))
theorem Row.staIndX (z : Byte) : Row.Statement (.staIndX z) := fun _ => (rfl : instrOf 0x81 z 0 = (.staIndX z))
theorem Row.staZp (z : Byte) : Row.Statement (.staZp z) := fun _ => (rfl : instrOf 0x85 z 0 = (.staZp z))
theorem Row.staAbs (a : Addr) : Row.Statement (.staAbs a) := fun _ =>
  (rfl : instrOf 0x8D (loByte a) (hiByte a) = .staAbs (word (loByte a) (hiByte a))).trans
    (congrArg Instr.staAbs (Machine.word_loByte_hiByte a))
theorem Row.staIndY (z : Byte) : Row.Statement (.staIndY z) := fun _ => (rfl : instrOf 0x91 z 0 = (.staIndY z))
theorem Row.staZpX (z : Byte) : Row.Statement (.staZpX z) := fun _ => (rfl : instrOf 0x95 z 0 = (.staZpX z))
theorem Row.staAbsY (a : Addr) : Row.Statement (.staAbsY a) := fun _ =>
  (rfl : instrOf 0x99 (loByte a) (hiByte a) = .staAbsY (word (loByte a) (hiByte a))).trans
    (congrArg Instr.staAbsY (Machine.word_loByte_hiByte a))
theorem Row.staAbsX (a : Addr) : Row.Statement (.staAbsX a) := fun _ =>
  (rfl : instrOf 0x9D (loByte a) (hiByte a) = .staAbsX (word (loByte a) (hiByte a))).trans
    (congrArg Instr.staAbsX (Machine.word_loByte_hiByte a))
theorem Row.stxZp (z : Byte) : Row.Statement (.stxZp z) := fun _ => (rfl : instrOf 0x86 z 0 = (.stxZp z))
theorem Row.stxAbs (a : Addr) : Row.Statement (.stxAbs a) := fun _ =>
  (rfl : instrOf 0x8E (loByte a) (hiByte a) = .stxAbs (word (loByte a) (hiByte a))).trans
    (congrArg Instr.stxAbs (Machine.word_loByte_hiByte a))
theorem Row.stxZpY (z : Byte) : Row.Statement (.stxZpY z) := fun _ => (rfl : instrOf 0x96 z 0 = (.stxZpY z))
theorem Row.styZp (z : Byte) : Row.Statement (.styZp z) := fun _ => (rfl : instrOf 0x84 z 0 = (.styZp z))
theorem Row.styAbs (a : Addr) : Row.Statement (.styAbs a) := fun _ =>
  (rfl : instrOf 0x8C (loByte a) (hiByte a) = .styAbs (word (loByte a) (hiByte a))).trans
    (congrArg Instr.styAbs (Machine.word_loByte_hiByte a))
theorem Row.styZpX (z : Byte) : Row.Statement (.styZpX z) := fun _ => (rfl : instrOf 0x94 z 0 = (.styZpX z))
theorem Row.tax : Row.Statement .tax := fun _ => (rfl : instrOf 0xAA 0 0 = .tax)
theorem Row.tay : Row.Statement .tay := fun _ => (rfl : instrOf 0xA8 0 0 = .tay)
theorem Row.tsx : Row.Statement .tsx := fun _ => (rfl : instrOf 0xBA 0 0 = .tsx)
theorem Row.txa : Row.Statement .txa := fun _ => (rfl : instrOf 0x8A 0 0 = .txa)
theorem Row.txs : Row.Statement .txs := fun _ => (rfl : instrOf 0x9A 0 0 = .txs)
theorem Row.tya : Row.Statement .tya := fun _ => (rfl : instrOf 0x98 0 0 = .tya)
theorem Row.pha : Row.Statement .pha := fun _ => (rfl : instrOf 0x48 0 0 = .pha)
theorem Row.php : Row.Statement .php := fun _ => (rfl : instrOf 0x08 0 0 = .php)
theorem Row.pla : Row.Statement .pla := fun _ => (rfl : instrOf 0x68 0 0 = .pla)
theorem Row.plp : Row.Statement .plp := fun _ => (rfl : instrOf 0x28 0 0 = .plp)
theorem Row.adcIndX (z : Byte) : Row.Statement (.adcIndX z) := fun _ => (rfl : instrOf 0x61 z 0 = (.adcIndX z))
theorem Row.adcZp (z : Byte) : Row.Statement (.adcZp z) := fun _ => (rfl : instrOf 0x65 z 0 = (.adcZp z))
theorem Row.adcImm (v : Byte) : Row.Statement (.adcImm v) := fun _ => (rfl : instrOf 0x69 v 0 = (.adcImm v))
theorem Row.adcAbs (a : Addr) : Row.Statement (.adcAbs a) := fun _ =>
  (rfl : instrOf 0x6D (loByte a) (hiByte a) = .adcAbs (word (loByte a) (hiByte a))).trans
    (congrArg Instr.adcAbs (Machine.word_loByte_hiByte a))
theorem Row.adcIndY (z : Byte) : Row.Statement (.adcIndY z) := fun _ => (rfl : instrOf 0x71 z 0 = (.adcIndY z))
theorem Row.adcZpX (z : Byte) : Row.Statement (.adcZpX z) := fun _ => (rfl : instrOf 0x75 z 0 = (.adcZpX z))
theorem Row.adcAbsY (a : Addr) : Row.Statement (.adcAbsY a) := fun _ =>
  (rfl : instrOf 0x79 (loByte a) (hiByte a) = .adcAbsY (word (loByte a) (hiByte a))).trans
    (congrArg Instr.adcAbsY (Machine.word_loByte_hiByte a))
theorem Row.adcAbsX (a : Addr) : Row.Statement (.adcAbsX a) := fun _ =>
  (rfl : instrOf 0x7D (loByte a) (hiByte a) = .adcAbsX (word (loByte a) (hiByte a))).trans
    (congrArg Instr.adcAbsX (Machine.word_loByte_hiByte a))
theorem Row.sbcIndX (z : Byte) : Row.Statement (.sbcIndX z) := fun _ => (rfl : instrOf 0xE1 z 0 = (.sbcIndX z))
theorem Row.sbcZp (z : Byte) : Row.Statement (.sbcZp z) := fun _ => (rfl : instrOf 0xE5 z 0 = (.sbcZp z))
theorem Row.sbcImm (v : Byte) : Row.Statement (.sbcImm v) := fun _ => (rfl : instrOf 0xE9 v 0 = (.sbcImm v))
theorem Row.sbcAbs (a : Addr) : Row.Statement (.sbcAbs a) := fun _ =>
  (rfl : instrOf 0xED (loByte a) (hiByte a) = .sbcAbs (word (loByte a) (hiByte a))).trans
    (congrArg Instr.sbcAbs (Machine.word_loByte_hiByte a))
theorem Row.sbcIndY (z : Byte) : Row.Statement (.sbcIndY z) := fun _ => (rfl : instrOf 0xF1 z 0 = (.sbcIndY z))
theorem Row.sbcZpX (z : Byte) : Row.Statement (.sbcZpX z) := fun _ => (rfl : instrOf 0xF5 z 0 = (.sbcZpX z))
theorem Row.sbcAbsY (a : Addr) : Row.Statement (.sbcAbsY a) := fun _ =>
  (rfl : instrOf 0xF9 (loByte a) (hiByte a) = .sbcAbsY (word (loByte a) (hiByte a))).trans
    (congrArg Instr.sbcAbsY (Machine.word_loByte_hiByte a))
theorem Row.sbcAbsX (a : Addr) : Row.Statement (.sbcAbsX a) := fun _ =>
  (rfl : instrOf 0xFD (loByte a) (hiByte a) = .sbcAbsX (word (loByte a) (hiByte a))).trans
    (congrArg Instr.sbcAbsX (Machine.word_loByte_hiByte a))
theorem Row.andIndX (z : Byte) : Row.Statement (.andIndX z) := fun _ => (rfl : instrOf 0x21 z 0 = (.andIndX z))
theorem Row.andZp (z : Byte) : Row.Statement (.andZp z) := fun _ => (rfl : instrOf 0x25 z 0 = (.andZp z))
theorem Row.andImm (v : Byte) : Row.Statement (.andImm v) := fun _ => (rfl : instrOf 0x29 v 0 = (.andImm v))
theorem Row.andAbs (a : Addr) : Row.Statement (.andAbs a) := fun _ =>
  (rfl : instrOf 0x2D (loByte a) (hiByte a) = .andAbs (word (loByte a) (hiByte a))).trans
    (congrArg Instr.andAbs (Machine.word_loByte_hiByte a))
theorem Row.andIndY (z : Byte) : Row.Statement (.andIndY z) := fun _ => (rfl : instrOf 0x31 z 0 = (.andIndY z))
theorem Row.andZpX (z : Byte) : Row.Statement (.andZpX z) := fun _ => (rfl : instrOf 0x35 z 0 = (.andZpX z))
theorem Row.andAbsY (a : Addr) : Row.Statement (.andAbsY a) := fun _ =>
  (rfl : instrOf 0x39 (loByte a) (hiByte a) = .andAbsY (word (loByte a) (hiByte a))).trans
    (congrArg Instr.andAbsY (Machine.word_loByte_hiByte a))
theorem Row.andAbsX (a : Addr) : Row.Statement (.andAbsX a) := fun _ =>
  (rfl : instrOf 0x3D (loByte a) (hiByte a) = .andAbsX (word (loByte a) (hiByte a))).trans
    (congrArg Instr.andAbsX (Machine.word_loByte_hiByte a))
theorem Row.oraIndX (z : Byte) : Row.Statement (.oraIndX z) := fun _ => (rfl : instrOf 0x01 z 0 = (.oraIndX z))
theorem Row.oraZp (z : Byte) : Row.Statement (.oraZp z) := fun _ => (rfl : instrOf 0x05 z 0 = (.oraZp z))
theorem Row.oraImm (v : Byte) : Row.Statement (.oraImm v) := fun _ => (rfl : instrOf 0x09 v 0 = (.oraImm v))
theorem Row.oraAbs (a : Addr) : Row.Statement (.oraAbs a) := fun _ =>
  (rfl : instrOf 0x0D (loByte a) (hiByte a) = .oraAbs (word (loByte a) (hiByte a))).trans
    (congrArg Instr.oraAbs (Machine.word_loByte_hiByte a))
theorem Row.oraIndY (z : Byte) : Row.Statement (.oraIndY z) := fun _ => (rfl : instrOf 0x11 z 0 = (.oraIndY z))
theorem Row.oraZpX (z : Byte) : Row.Statement (.oraZpX z) := fun _ => (rfl : instrOf 0x15 z 0 = (.oraZpX z))
theorem Row.oraAbsY (a : Addr) : Row.Statement (.oraAbsY a) := fun _ =>
  (rfl : instrOf 0x19 (loByte a) (hiByte a) = .oraAbsY (word (loByte a) (hiByte a))).trans
    (congrArg Instr.oraAbsY (Machine.word_loByte_hiByte a))
theorem Row.oraAbsX (a : Addr) : Row.Statement (.oraAbsX a) := fun _ =>
  (rfl : instrOf 0x1D (loByte a) (hiByte a) = .oraAbsX (word (loByte a) (hiByte a))).trans
    (congrArg Instr.oraAbsX (Machine.word_loByte_hiByte a))
theorem Row.eorIndX (z : Byte) : Row.Statement (.eorIndX z) := fun _ => (rfl : instrOf 0x41 z 0 = (.eorIndX z))
theorem Row.eorZp (z : Byte) : Row.Statement (.eorZp z) := fun _ => (rfl : instrOf 0x45 z 0 = (.eorZp z))
theorem Row.eorImm (v : Byte) : Row.Statement (.eorImm v) := fun _ => (rfl : instrOf 0x49 v 0 = (.eorImm v))
theorem Row.eorAbs (a : Addr) : Row.Statement (.eorAbs a) := fun _ =>
  (rfl : instrOf 0x4D (loByte a) (hiByte a) = .eorAbs (word (loByte a) (hiByte a))).trans
    (congrArg Instr.eorAbs (Machine.word_loByte_hiByte a))
theorem Row.eorIndY (z : Byte) : Row.Statement (.eorIndY z) := fun _ => (rfl : instrOf 0x51 z 0 = (.eorIndY z))
theorem Row.eorZpX (z : Byte) : Row.Statement (.eorZpX z) := fun _ => (rfl : instrOf 0x55 z 0 = (.eorZpX z))
theorem Row.eorAbsY (a : Addr) : Row.Statement (.eorAbsY a) := fun _ =>
  (rfl : instrOf 0x59 (loByte a) (hiByte a) = .eorAbsY (word (loByte a) (hiByte a))).trans
    (congrArg Instr.eorAbsY (Machine.word_loByte_hiByte a))
theorem Row.eorAbsX (a : Addr) : Row.Statement (.eorAbsX a) := fun _ =>
  (rfl : instrOf 0x5D (loByte a) (hiByte a) = .eorAbsX (word (loByte a) (hiByte a))).trans
    (congrArg Instr.eorAbsX (Machine.word_loByte_hiByte a))
theorem Row.bitZp (z : Byte) : Row.Statement (.bitZp z) := fun _ => (rfl : instrOf 0x24 z 0 = (.bitZp z))
theorem Row.bitAbs (a : Addr) : Row.Statement (.bitAbs a) := fun _ =>
  (rfl : instrOf 0x2C (loByte a) (hiByte a) = .bitAbs (word (loByte a) (hiByte a))).trans
    (congrArg Instr.bitAbs (Machine.word_loByte_hiByte a))
theorem Row.cmpIndX (z : Byte) : Row.Statement (.cmpIndX z) := fun _ => (rfl : instrOf 0xC1 z 0 = (.cmpIndX z))
theorem Row.cmpZp (z : Byte) : Row.Statement (.cmpZp z) := fun _ => (rfl : instrOf 0xC5 z 0 = (.cmpZp z))
theorem Row.cmpImm (v : Byte) : Row.Statement (.cmpImm v) := fun _ => (rfl : instrOf 0xC9 v 0 = (.cmpImm v))
theorem Row.cmpAbs (a : Addr) : Row.Statement (.cmpAbs a) := fun _ =>
  (rfl : instrOf 0xCD (loByte a) (hiByte a) = .cmpAbs (word (loByte a) (hiByte a))).trans
    (congrArg Instr.cmpAbs (Machine.word_loByte_hiByte a))
theorem Row.cmpIndY (z : Byte) : Row.Statement (.cmpIndY z) := fun _ => (rfl : instrOf 0xD1 z 0 = (.cmpIndY z))
theorem Row.cmpZpX (z : Byte) : Row.Statement (.cmpZpX z) := fun _ => (rfl : instrOf 0xD5 z 0 = (.cmpZpX z))
theorem Row.cmpAbsY (a : Addr) : Row.Statement (.cmpAbsY a) := fun _ =>
  (rfl : instrOf 0xD9 (loByte a) (hiByte a) = .cmpAbsY (word (loByte a) (hiByte a))).trans
    (congrArg Instr.cmpAbsY (Machine.word_loByte_hiByte a))
theorem Row.cmpAbsX (a : Addr) : Row.Statement (.cmpAbsX a) := fun _ =>
  (rfl : instrOf 0xDD (loByte a) (hiByte a) = .cmpAbsX (word (loByte a) (hiByte a))).trans
    (congrArg Instr.cmpAbsX (Machine.word_loByte_hiByte a))
theorem Row.cpxImm (v : Byte) : Row.Statement (.cpxImm v) := fun _ => (rfl : instrOf 0xE0 v 0 = (.cpxImm v))
theorem Row.cpxZp (z : Byte) : Row.Statement (.cpxZp z) := fun _ => (rfl : instrOf 0xE4 z 0 = (.cpxZp z))
theorem Row.cpxAbs (a : Addr) : Row.Statement (.cpxAbs a) := fun _ =>
  (rfl : instrOf 0xEC (loByte a) (hiByte a) = .cpxAbs (word (loByte a) (hiByte a))).trans
    (congrArg Instr.cpxAbs (Machine.word_loByte_hiByte a))
theorem Row.cpyImm (v : Byte) : Row.Statement (.cpyImm v) := fun _ => (rfl : instrOf 0xC0 v 0 = (.cpyImm v))
theorem Row.cpyZp (z : Byte) : Row.Statement (.cpyZp z) := fun _ => (rfl : instrOf 0xC4 z 0 = (.cpyZp z))
theorem Row.cpyAbs (a : Addr) : Row.Statement (.cpyAbs a) := fun _ =>
  (rfl : instrOf 0xCC (loByte a) (hiByte a) = .cpyAbs (word (loByte a) (hiByte a))).trans
    (congrArg Instr.cpyAbs (Machine.word_loByte_hiByte a))
theorem Row.incZp (z : Byte) : Row.Statement (.incZp z) := fun _ => (rfl : instrOf 0xE6 z 0 = (.incZp z))
theorem Row.incAbs (a : Addr) : Row.Statement (.incAbs a) := fun _ =>
  (rfl : instrOf 0xEE (loByte a) (hiByte a) = .incAbs (word (loByte a) (hiByte a))).trans
    (congrArg Instr.incAbs (Machine.word_loByte_hiByte a))
theorem Row.incZpX (z : Byte) : Row.Statement (.incZpX z) := fun _ => (rfl : instrOf 0xF6 z 0 = (.incZpX z))
theorem Row.incAbsX (a : Addr) : Row.Statement (.incAbsX a) := fun _ =>
  (rfl : instrOf 0xFE (loByte a) (hiByte a) = .incAbsX (word (loByte a) (hiByte a))).trans
    (congrArg Instr.incAbsX (Machine.word_loByte_hiByte a))
theorem Row.decZp (z : Byte) : Row.Statement (.decZp z) := fun _ => (rfl : instrOf 0xC6 z 0 = (.decZp z))
theorem Row.decAbs (a : Addr) : Row.Statement (.decAbs a) := fun _ =>
  (rfl : instrOf 0xCE (loByte a) (hiByte a) = .decAbs (word (loByte a) (hiByte a))).trans
    (congrArg Instr.decAbs (Machine.word_loByte_hiByte a))
theorem Row.decZpX (z : Byte) : Row.Statement (.decZpX z) := fun _ => (rfl : instrOf 0xD6 z 0 = (.decZpX z))
theorem Row.decAbsX (a : Addr) : Row.Statement (.decAbsX a) := fun _ =>
  (rfl : instrOf 0xDE (loByte a) (hiByte a) = .decAbsX (word (loByte a) (hiByte a))).trans
    (congrArg Instr.decAbsX (Machine.word_loByte_hiByte a))
theorem Row.inx : Row.Statement .inx := fun _ => (rfl : instrOf 0xE8 0 0 = .inx)
theorem Row.iny : Row.Statement .iny := fun _ => (rfl : instrOf 0xC8 0 0 = .iny)
theorem Row.dex : Row.Statement .dex := fun _ => (rfl : instrOf 0xCA 0 0 = .dex)
theorem Row.dey : Row.Statement .dey := fun _ => (rfl : instrOf 0x88 0 0 = .dey)
theorem Row.aslZp (z : Byte) : Row.Statement (.aslZp z) := fun _ => (rfl : instrOf 0x06 z 0 = (.aslZp z))
theorem Row.aslAcc : Row.Statement .aslAcc := fun _ => (rfl : instrOf 0x0A 0 0 = .aslAcc)
theorem Row.aslAbs (a : Addr) : Row.Statement (.aslAbs a) := fun _ =>
  (rfl : instrOf 0x0E (loByte a) (hiByte a) = .aslAbs (word (loByte a) (hiByte a))).trans
    (congrArg Instr.aslAbs (Machine.word_loByte_hiByte a))
theorem Row.aslZpX (z : Byte) : Row.Statement (.aslZpX z) := fun _ => (rfl : instrOf 0x16 z 0 = (.aslZpX z))
theorem Row.aslAbsX (a : Addr) : Row.Statement (.aslAbsX a) := fun _ =>
  (rfl : instrOf 0x1E (loByte a) (hiByte a) = .aslAbsX (word (loByte a) (hiByte a))).trans
    (congrArg Instr.aslAbsX (Machine.word_loByte_hiByte a))
theorem Row.lsrZp (z : Byte) : Row.Statement (.lsrZp z) := fun _ => (rfl : instrOf 0x46 z 0 = (.lsrZp z))
theorem Row.lsrAcc : Row.Statement .lsrAcc := fun _ => (rfl : instrOf 0x4A 0 0 = .lsrAcc)
theorem Row.lsrAbs (a : Addr) : Row.Statement (.lsrAbs a) := fun _ =>
  (rfl : instrOf 0x4E (loByte a) (hiByte a) = .lsrAbs (word (loByte a) (hiByte a))).trans
    (congrArg Instr.lsrAbs (Machine.word_loByte_hiByte a))
theorem Row.lsrZpX (z : Byte) : Row.Statement (.lsrZpX z) := fun _ => (rfl : instrOf 0x56 z 0 = (.lsrZpX z))
theorem Row.lsrAbsX (a : Addr) : Row.Statement (.lsrAbsX a) := fun _ =>
  (rfl : instrOf 0x5E (loByte a) (hiByte a) = .lsrAbsX (word (loByte a) (hiByte a))).trans
    (congrArg Instr.lsrAbsX (Machine.word_loByte_hiByte a))
theorem Row.rolZp (z : Byte) : Row.Statement (.rolZp z) := fun _ => (rfl : instrOf 0x26 z 0 = (.rolZp z))
theorem Row.rolAcc : Row.Statement .rolAcc := fun _ => (rfl : instrOf 0x2A 0 0 = .rolAcc)
theorem Row.rolAbs (a : Addr) : Row.Statement (.rolAbs a) := fun _ =>
  (rfl : instrOf 0x2E (loByte a) (hiByte a) = .rolAbs (word (loByte a) (hiByte a))).trans
    (congrArg Instr.rolAbs (Machine.word_loByte_hiByte a))
theorem Row.rolZpX (z : Byte) : Row.Statement (.rolZpX z) := fun _ => (rfl : instrOf 0x36 z 0 = (.rolZpX z))
theorem Row.rolAbsX (a : Addr) : Row.Statement (.rolAbsX a) := fun _ =>
  (rfl : instrOf 0x3E (loByte a) (hiByte a) = .rolAbsX (word (loByte a) (hiByte a))).trans
    (congrArg Instr.rolAbsX (Machine.word_loByte_hiByte a))
theorem Row.rorZp (z : Byte) : Row.Statement (.rorZp z) := fun _ => (rfl : instrOf 0x66 z 0 = (.rorZp z))
theorem Row.rorAcc : Row.Statement .rorAcc := fun _ => (rfl : instrOf 0x6A 0 0 = .rorAcc)
theorem Row.rorAbs (a : Addr) : Row.Statement (.rorAbs a) := fun _ =>
  (rfl : instrOf 0x6E (loByte a) (hiByte a) = .rorAbs (word (loByte a) (hiByte a))).trans
    (congrArg Instr.rorAbs (Machine.word_loByte_hiByte a))
theorem Row.rorZpX (z : Byte) : Row.Statement (.rorZpX z) := fun _ => (rfl : instrOf 0x76 z 0 = (.rorZpX z))
theorem Row.rorAbsX (a : Addr) : Row.Statement (.rorAbsX a) := fun _ =>
  (rfl : instrOf 0x7E (loByte a) (hiByte a) = .rorAbsX (word (loByte a) (hiByte a))).trans
    (congrArg Instr.rorAbsX (Machine.word_loByte_hiByte a))
theorem Row.bpl (o : Byte) : Row.Statement (.bpl o) := fun _ => (rfl : instrOf 0x10 o 0 = (.bpl o))
theorem Row.bmi (o : Byte) : Row.Statement (.bmi o) := fun _ => (rfl : instrOf 0x30 o 0 = (.bmi o))
theorem Row.bvc (o : Byte) : Row.Statement (.bvc o) := fun _ => (rfl : instrOf 0x50 o 0 = (.bvc o))
theorem Row.bvs (o : Byte) : Row.Statement (.bvs o) := fun _ => (rfl : instrOf 0x70 o 0 = (.bvs o))
theorem Row.bcc (o : Byte) : Row.Statement (.bcc o) := fun _ => (rfl : instrOf 0x90 o 0 = (.bcc o))
theorem Row.bcs (o : Byte) : Row.Statement (.bcs o) := fun _ => (rfl : instrOf 0xB0 o 0 = (.bcs o))
theorem Row.bne (o : Byte) : Row.Statement (.bne o) := fun _ => (rfl : instrOf 0xD0 o 0 = (.bne o))
theorem Row.beq (o : Byte) : Row.Statement (.beq o) := fun _ => (rfl : instrOf 0xF0 o 0 = (.beq o))
theorem Row.jmpAbs (t : Addr) : Row.Statement (.jmpAbs t) := fun _ =>
  (rfl : instrOf 0x4C (loByte t) (hiByte t) = .jmpAbs (word (loByte t) (hiByte t))).trans
    (congrArg Instr.jmpAbs (Machine.word_loByte_hiByte t))
theorem Row.jmpInd (ptr : Addr) : Row.Statement (.jmpInd ptr) := fun _ =>
  (rfl : instrOf 0x6C (loByte ptr) (hiByte ptr) = .jmpInd (word (loByte ptr) (hiByte ptr))).trans
    (congrArg Instr.jmpInd (Machine.word_loByte_hiByte ptr))
theorem Row.brk : Row.Statement .brk := fun _ => (rfl : instrOf 0x00 0 0 = .brk)
theorem Row.rti : Row.Statement .rti := fun _ => (rfl : instrOf 0x40 0 0 = .rti)
theorem Row.jsr (t : Addr) : Row.Statement (.jsr t) := fun _ =>
  (rfl : instrOf 0x20 (loByte t) (hiByte t) = .jsr (word (loByte t) (hiByte t))).trans
    (congrArg Instr.jsr (Machine.word_loByte_hiByte t))
theorem Row.rts : Row.Statement .rts := fun _ => (rfl : instrOf 0x60 0 0 = .rts)
theorem Row.clc : Row.Statement .clc := fun _ => (rfl : instrOf 0x18 0 0 = .clc)
theorem Row.cld : Row.Statement .cld := fun _ => (rfl : instrOf 0xD8 0 0 = .cld)
theorem Row.cli : Row.Statement .cli := fun _ => (rfl : instrOf 0x58 0 0 = .cli)
theorem Row.clv : Row.Statement .clv := fun _ => (rfl : instrOf 0xB8 0 0 = .clv)
theorem Row.sec : Row.Statement .sec := fun _ => (rfl : instrOf 0x38 0 0 = .sec)
theorem Row.sed : Row.Statement .sed := fun _ => (rfl : instrOf 0xF8 0 0 = .sed)
theorem Row.sei : Row.Statement .sei := fun _ => (rfl : instrOf 0x78 0 0 = .sei)
theorem Row.nop : Row.Statement .nop := fun _ => (rfl : instrOf 0xEA 0 0 = .nop)
theorem Row.illegal (op : Byte) : Row.Statement (.illegal op) := fun h =>
  (illegal_row op (by simpa [Instr.wellFormed] using h)).2

theorem Length.ldaIndX (z : Byte) : Length.Statement (.ldaIndX z) := fun _ => rfl
theorem Length.ldaZp (z : Byte) : Length.Statement (.ldaZp z) := fun _ => rfl
theorem Length.ldaImm (v : Byte) : Length.Statement (.ldaImm v) := fun _ => rfl
theorem Length.ldaAbs (a : Addr) : Length.Statement (.ldaAbs a) := fun _ => rfl
theorem Length.ldaIndY (z : Byte) : Length.Statement (.ldaIndY z) := fun _ => rfl
theorem Length.ldaZpX (z : Byte) : Length.Statement (.ldaZpX z) := fun _ => rfl
theorem Length.ldaAbsY (a : Addr) : Length.Statement (.ldaAbsY a) := fun _ => rfl
theorem Length.ldaAbsX (a : Addr) : Length.Statement (.ldaAbsX a) := fun _ => rfl
theorem Length.ldxImm (v : Byte) : Length.Statement (.ldxImm v) := fun _ => rfl
theorem Length.ldxZp (z : Byte) : Length.Statement (.ldxZp z) := fun _ => rfl
theorem Length.ldxAbs (a : Addr) : Length.Statement (.ldxAbs a) := fun _ => rfl
theorem Length.ldxZpY (z : Byte) : Length.Statement (.ldxZpY z) := fun _ => rfl
theorem Length.ldxAbsY (a : Addr) : Length.Statement (.ldxAbsY a) := fun _ => rfl
theorem Length.ldyImm (v : Byte) : Length.Statement (.ldyImm v) := fun _ => rfl
theorem Length.ldyZp (z : Byte) : Length.Statement (.ldyZp z) := fun _ => rfl
theorem Length.ldyAbs (a : Addr) : Length.Statement (.ldyAbs a) := fun _ => rfl
theorem Length.ldyZpX (z : Byte) : Length.Statement (.ldyZpX z) := fun _ => rfl
theorem Length.ldyAbsX (a : Addr) : Length.Statement (.ldyAbsX a) := fun _ => rfl
theorem Length.staIndX (z : Byte) : Length.Statement (.staIndX z) := fun _ => rfl
theorem Length.staZp (z : Byte) : Length.Statement (.staZp z) := fun _ => rfl
theorem Length.staAbs (a : Addr) : Length.Statement (.staAbs a) := fun _ => rfl
theorem Length.staIndY (z : Byte) : Length.Statement (.staIndY z) := fun _ => rfl
theorem Length.staZpX (z : Byte) : Length.Statement (.staZpX z) := fun _ => rfl
theorem Length.staAbsY (a : Addr) : Length.Statement (.staAbsY a) := fun _ => rfl
theorem Length.staAbsX (a : Addr) : Length.Statement (.staAbsX a) := fun _ => rfl
theorem Length.stxZp (z : Byte) : Length.Statement (.stxZp z) := fun _ => rfl
theorem Length.stxAbs (a : Addr) : Length.Statement (.stxAbs a) := fun _ => rfl
theorem Length.stxZpY (z : Byte) : Length.Statement (.stxZpY z) := fun _ => rfl
theorem Length.styZp (z : Byte) : Length.Statement (.styZp z) := fun _ => rfl
theorem Length.styAbs (a : Addr) : Length.Statement (.styAbs a) := fun _ => rfl
theorem Length.styZpX (z : Byte) : Length.Statement (.styZpX z) := fun _ => rfl
theorem Length.tax : Length.Statement .tax := fun _ => rfl
theorem Length.tay : Length.Statement .tay := fun _ => rfl
theorem Length.tsx : Length.Statement .tsx := fun _ => rfl
theorem Length.txa : Length.Statement .txa := fun _ => rfl
theorem Length.txs : Length.Statement .txs := fun _ => rfl
theorem Length.tya : Length.Statement .tya := fun _ => rfl
theorem Length.pha : Length.Statement .pha := fun _ => rfl
theorem Length.php : Length.Statement .php := fun _ => rfl
theorem Length.pla : Length.Statement .pla := fun _ => rfl
theorem Length.plp : Length.Statement .plp := fun _ => rfl
theorem Length.adcIndX (z : Byte) : Length.Statement (.adcIndX z) := fun _ => rfl
theorem Length.adcZp (z : Byte) : Length.Statement (.adcZp z) := fun _ => rfl
theorem Length.adcImm (v : Byte) : Length.Statement (.adcImm v) := fun _ => rfl
theorem Length.adcAbs (a : Addr) : Length.Statement (.adcAbs a) := fun _ => rfl
theorem Length.adcIndY (z : Byte) : Length.Statement (.adcIndY z) := fun _ => rfl
theorem Length.adcZpX (z : Byte) : Length.Statement (.adcZpX z) := fun _ => rfl
theorem Length.adcAbsY (a : Addr) : Length.Statement (.adcAbsY a) := fun _ => rfl
theorem Length.adcAbsX (a : Addr) : Length.Statement (.adcAbsX a) := fun _ => rfl
theorem Length.sbcIndX (z : Byte) : Length.Statement (.sbcIndX z) := fun _ => rfl
theorem Length.sbcZp (z : Byte) : Length.Statement (.sbcZp z) := fun _ => rfl
theorem Length.sbcImm (v : Byte) : Length.Statement (.sbcImm v) := fun _ => rfl
theorem Length.sbcAbs (a : Addr) : Length.Statement (.sbcAbs a) := fun _ => rfl
theorem Length.sbcIndY (z : Byte) : Length.Statement (.sbcIndY z) := fun _ => rfl
theorem Length.sbcZpX (z : Byte) : Length.Statement (.sbcZpX z) := fun _ => rfl
theorem Length.sbcAbsY (a : Addr) : Length.Statement (.sbcAbsY a) := fun _ => rfl
theorem Length.sbcAbsX (a : Addr) : Length.Statement (.sbcAbsX a) := fun _ => rfl
theorem Length.andIndX (z : Byte) : Length.Statement (.andIndX z) := fun _ => rfl
theorem Length.andZp (z : Byte) : Length.Statement (.andZp z) := fun _ => rfl
theorem Length.andImm (v : Byte) : Length.Statement (.andImm v) := fun _ => rfl
theorem Length.andAbs (a : Addr) : Length.Statement (.andAbs a) := fun _ => rfl
theorem Length.andIndY (z : Byte) : Length.Statement (.andIndY z) := fun _ => rfl
theorem Length.andZpX (z : Byte) : Length.Statement (.andZpX z) := fun _ => rfl
theorem Length.andAbsY (a : Addr) : Length.Statement (.andAbsY a) := fun _ => rfl
theorem Length.andAbsX (a : Addr) : Length.Statement (.andAbsX a) := fun _ => rfl
theorem Length.oraIndX (z : Byte) : Length.Statement (.oraIndX z) := fun _ => rfl
theorem Length.oraZp (z : Byte) : Length.Statement (.oraZp z) := fun _ => rfl
theorem Length.oraImm (v : Byte) : Length.Statement (.oraImm v) := fun _ => rfl
theorem Length.oraAbs (a : Addr) : Length.Statement (.oraAbs a) := fun _ => rfl
theorem Length.oraIndY (z : Byte) : Length.Statement (.oraIndY z) := fun _ => rfl
theorem Length.oraZpX (z : Byte) : Length.Statement (.oraZpX z) := fun _ => rfl
theorem Length.oraAbsY (a : Addr) : Length.Statement (.oraAbsY a) := fun _ => rfl
theorem Length.oraAbsX (a : Addr) : Length.Statement (.oraAbsX a) := fun _ => rfl
theorem Length.eorIndX (z : Byte) : Length.Statement (.eorIndX z) := fun _ => rfl
theorem Length.eorZp (z : Byte) : Length.Statement (.eorZp z) := fun _ => rfl
theorem Length.eorImm (v : Byte) : Length.Statement (.eorImm v) := fun _ => rfl
theorem Length.eorAbs (a : Addr) : Length.Statement (.eorAbs a) := fun _ => rfl
theorem Length.eorIndY (z : Byte) : Length.Statement (.eorIndY z) := fun _ => rfl
theorem Length.eorZpX (z : Byte) : Length.Statement (.eorZpX z) := fun _ => rfl
theorem Length.eorAbsY (a : Addr) : Length.Statement (.eorAbsY a) := fun _ => rfl
theorem Length.eorAbsX (a : Addr) : Length.Statement (.eorAbsX a) := fun _ => rfl
theorem Length.bitZp (z : Byte) : Length.Statement (.bitZp z) := fun _ => rfl
theorem Length.bitAbs (a : Addr) : Length.Statement (.bitAbs a) := fun _ => rfl
theorem Length.cmpIndX (z : Byte) : Length.Statement (.cmpIndX z) := fun _ => rfl
theorem Length.cmpZp (z : Byte) : Length.Statement (.cmpZp z) := fun _ => rfl
theorem Length.cmpImm (v : Byte) : Length.Statement (.cmpImm v) := fun _ => rfl
theorem Length.cmpAbs (a : Addr) : Length.Statement (.cmpAbs a) := fun _ => rfl
theorem Length.cmpIndY (z : Byte) : Length.Statement (.cmpIndY z) := fun _ => rfl
theorem Length.cmpZpX (z : Byte) : Length.Statement (.cmpZpX z) := fun _ => rfl
theorem Length.cmpAbsY (a : Addr) : Length.Statement (.cmpAbsY a) := fun _ => rfl
theorem Length.cmpAbsX (a : Addr) : Length.Statement (.cmpAbsX a) := fun _ => rfl
theorem Length.cpxImm (v : Byte) : Length.Statement (.cpxImm v) := fun _ => rfl
theorem Length.cpxZp (z : Byte) : Length.Statement (.cpxZp z) := fun _ => rfl
theorem Length.cpxAbs (a : Addr) : Length.Statement (.cpxAbs a) := fun _ => rfl
theorem Length.cpyImm (v : Byte) : Length.Statement (.cpyImm v) := fun _ => rfl
theorem Length.cpyZp (z : Byte) : Length.Statement (.cpyZp z) := fun _ => rfl
theorem Length.cpyAbs (a : Addr) : Length.Statement (.cpyAbs a) := fun _ => rfl
theorem Length.incZp (z : Byte) : Length.Statement (.incZp z) := fun _ => rfl
theorem Length.incAbs (a : Addr) : Length.Statement (.incAbs a) := fun _ => rfl
theorem Length.incZpX (z : Byte) : Length.Statement (.incZpX z) := fun _ => rfl
theorem Length.incAbsX (a : Addr) : Length.Statement (.incAbsX a) := fun _ => rfl
theorem Length.decZp (z : Byte) : Length.Statement (.decZp z) := fun _ => rfl
theorem Length.decAbs (a : Addr) : Length.Statement (.decAbs a) := fun _ => rfl
theorem Length.decZpX (z : Byte) : Length.Statement (.decZpX z) := fun _ => rfl
theorem Length.decAbsX (a : Addr) : Length.Statement (.decAbsX a) := fun _ => rfl
theorem Length.inx : Length.Statement .inx := fun _ => rfl
theorem Length.iny : Length.Statement .iny := fun _ => rfl
theorem Length.dex : Length.Statement .dex := fun _ => rfl
theorem Length.dey : Length.Statement .dey := fun _ => rfl
theorem Length.aslZp (z : Byte) : Length.Statement (.aslZp z) := fun _ => rfl
theorem Length.aslAcc : Length.Statement .aslAcc := fun _ => rfl
theorem Length.aslAbs (a : Addr) : Length.Statement (.aslAbs a) := fun _ => rfl
theorem Length.aslZpX (z : Byte) : Length.Statement (.aslZpX z) := fun _ => rfl
theorem Length.aslAbsX (a : Addr) : Length.Statement (.aslAbsX a) := fun _ => rfl
theorem Length.lsrZp (z : Byte) : Length.Statement (.lsrZp z) := fun _ => rfl
theorem Length.lsrAcc : Length.Statement .lsrAcc := fun _ => rfl
theorem Length.lsrAbs (a : Addr) : Length.Statement (.lsrAbs a) := fun _ => rfl
theorem Length.lsrZpX (z : Byte) : Length.Statement (.lsrZpX z) := fun _ => rfl
theorem Length.lsrAbsX (a : Addr) : Length.Statement (.lsrAbsX a) := fun _ => rfl
theorem Length.rolZp (z : Byte) : Length.Statement (.rolZp z) := fun _ => rfl
theorem Length.rolAcc : Length.Statement .rolAcc := fun _ => rfl
theorem Length.rolAbs (a : Addr) : Length.Statement (.rolAbs a) := fun _ => rfl
theorem Length.rolZpX (z : Byte) : Length.Statement (.rolZpX z) := fun _ => rfl
theorem Length.rolAbsX (a : Addr) : Length.Statement (.rolAbsX a) := fun _ => rfl
theorem Length.rorZp (z : Byte) : Length.Statement (.rorZp z) := fun _ => rfl
theorem Length.rorAcc : Length.Statement .rorAcc := fun _ => rfl
theorem Length.rorAbs (a : Addr) : Length.Statement (.rorAbs a) := fun _ => rfl
theorem Length.rorZpX (z : Byte) : Length.Statement (.rorZpX z) := fun _ => rfl
theorem Length.rorAbsX (a : Addr) : Length.Statement (.rorAbsX a) := fun _ => rfl
theorem Length.bpl (o : Byte) : Length.Statement (.bpl o) := fun _ => rfl
theorem Length.bmi (o : Byte) : Length.Statement (.bmi o) := fun _ => rfl
theorem Length.bvc (o : Byte) : Length.Statement (.bvc o) := fun _ => rfl
theorem Length.bvs (o : Byte) : Length.Statement (.bvs o) := fun _ => rfl
theorem Length.bcc (o : Byte) : Length.Statement (.bcc o) := fun _ => rfl
theorem Length.bcs (o : Byte) : Length.Statement (.bcs o) := fun _ => rfl
theorem Length.bne (o : Byte) : Length.Statement (.bne o) := fun _ => rfl
theorem Length.beq (o : Byte) : Length.Statement (.beq o) := fun _ => rfl
theorem Length.jmpAbs (t : Addr) : Length.Statement (.jmpAbs t) := fun _ => rfl
theorem Length.jmpInd (ptr : Addr) : Length.Statement (.jmpInd ptr) := fun _ => rfl
theorem Length.brk : Length.Statement .brk := fun _ => rfl
theorem Length.rti : Length.Statement .rti := fun _ => rfl
theorem Length.jsr (t : Addr) : Length.Statement (.jsr t) := fun _ => rfl
theorem Length.rts : Length.Statement .rts := fun _ => rfl
theorem Length.clc : Length.Statement .clc := fun _ => rfl
theorem Length.cld : Length.Statement .cld := fun _ => rfl
theorem Length.cli : Length.Statement .cli := fun _ => rfl
theorem Length.clv : Length.Statement .clv := fun _ => rfl
theorem Length.sec : Length.Statement .sec := fun _ => rfl
theorem Length.sed : Length.Statement .sed := fun _ => rfl
theorem Length.sei : Length.Statement .sei := fun _ => rfl
theorem Length.nop : Length.Statement .nop := fun _ => rfl
theorem Length.illegal (op : Byte) : Length.Statement (.illegal op) := fun h => by
  rw [opcode, (illegal_row op (by simpa [Instr.wellFormed] using h)).1]; rfl

end Sys2Proof.Laws
end

