-- ==== Sys2Proof/Tests/Slice0.lean ====
section
/-! SUPPORT. Tests: the well-formedness smoke test, every row's decoding from a word written from its encoding, one step
of each mnemonic against a vector of 95_test_vectors.md (its id is named), and a witness for the hypotheses of each
statement. -/

namespace Sys2Proof.Tests

open Sys2Proof.Machine

/-! ### Well-formedness -/

/-- An illegal term with the byte of an official opcode (NOP) is refused (R111). -/
theorem test_illegal_with_official_byte_is_refused : (Instr.illegal 0xEA).wellFormed = false := by decide

/-- An illegal term with a byte of R110 is accepted, and so is an official instruction. -/
theorem test_legal_terms_are_accepted : (Instr.illegal 0xFF).wellFormed = true ∧ (Instr.ldaImm 0xFF).wellFormed = true := by
  decide

/-! ### Decoding -/

/-- The word `w` of `nbits` bits, numbered as the table numbers them, decodes to `i`. -/
abbrev Decodes (nbits w : Nat) (i : Instr) : Prop := decodeTableWord nbits w = some i

/-- Every loads row, its word written from the encoding column of its rule; i = 0x42, z = 0x96, o = 0xFE, hl = 0x9234. -/
theorem test_decode_loads :
    Decodes 16 0b10010110_10100001 (.ldaIndX 0x96) ∧
    Decodes 16 0b10010110_10100101 (.ldaZp 0x96) ∧
    Decodes 16 0b01000010_10101001 (.ldaImm 0x42) ∧
    Decodes 24 0b10010010_00110100_10101101 (.ldaAbs 0x9234) ∧
    Decodes 16 0b10010110_10110001 (.ldaIndY 0x96) ∧
    Decodes 16 0b10010110_10110101 (.ldaZpX 0x96) ∧
    Decodes 24 0b10010010_00110100_10111001 (.ldaAbsY 0x9234) ∧
    Decodes 24 0b10010010_00110100_10111101 (.ldaAbsX 0x9234) ∧
    Decodes 16 0b01000010_10100010 (.ldxImm 0x42) ∧
    Decodes 16 0b10010110_10100110 (.ldxZp 0x96) ∧
    Decodes 24 0b10010010_00110100_10101110 (.ldxAbs 0x9234) ∧
    Decodes 16 0b10010110_10110110 (.ldxZpY 0x96) ∧
    Decodes 24 0b10010010_00110100_10111110 (.ldxAbsY 0x9234) ∧
    Decodes 16 0b01000010_10100000 (.ldyImm 0x42) ∧
    Decodes 16 0b10010110_10100100 (.ldyZp 0x96) ∧
    Decodes 24 0b10010010_00110100_10101100 (.ldyAbs 0x9234) ∧
    Decodes 16 0b10010110_10110100 (.ldyZpX 0x96) ∧
    Decodes 24 0b10010010_00110100_10111100 (.ldyAbsX 0x9234) := by
  decide +kernel

/-- Every stores row, its word written from the encoding column of its rule; i = 0x42, z = 0x96, o = 0xFE, hl = 0x9234. -/
theorem test_decode_stores :
    Decodes 16 0b10010110_10000001 (.staIndX 0x96) ∧
    Decodes 16 0b10010110_10000101 (.staZp 0x96) ∧
    Decodes 24 0b10010010_00110100_10001101 (.staAbs 0x9234) ∧
    Decodes 16 0b10010110_10010001 (.staIndY 0x96) ∧
    Decodes 16 0b10010110_10010101 (.staZpX 0x96) ∧
    Decodes 24 0b10010010_00110100_10011001 (.staAbsY 0x9234) ∧
    Decodes 24 0b10010010_00110100_10011101 (.staAbsX 0x9234) ∧
    Decodes 16 0b10010110_10000110 (.stxZp 0x96) ∧
    Decodes 24 0b10010010_00110100_10001110 (.stxAbs 0x9234) ∧
    Decodes 16 0b10010110_10010110 (.stxZpY 0x96) ∧
    Decodes 16 0b10010110_10000100 (.styZp 0x96) ∧
    Decodes 24 0b10010010_00110100_10001100 (.styAbs 0x9234) ∧
    Decodes 16 0b10010110_10010100 (.styZpX 0x96) := by
  decide +kernel

/-- Every transfers and stack row, its word written from the encoding column of its rule; i = 0x42, z = 0x96, o = 0xFE, hl = 0x9234. -/
theorem test_decode_transfers_and_stack :
    Decodes 8 0b10101010 (.tax) ∧
    Decodes 8 0b10101000 (.tay) ∧
    Decodes 8 0b10111010 (.tsx) ∧
    Decodes 8 0b10001010 (.txa) ∧
    Decodes 8 0b10011010 (.txs) ∧
    Decodes 8 0b10011000 (.tya) ∧
    Decodes 8 0b01001000 (.pha) ∧
    Decodes 8 0b00001000 (.php) ∧
    Decodes 8 0b01101000 (.pla) ∧
    Decodes 8 0b00101000 (.plp) := by
  decide +kernel

/-- Every add and subtract row, its word written from the encoding column of its rule; i = 0x42, z = 0x96, o = 0xFE, hl = 0x9234. -/
theorem test_decode_add_and_subtract :
    Decodes 16 0b10010110_01100001 (.adcIndX 0x96) ∧
    Decodes 16 0b10010110_01100101 (.adcZp 0x96) ∧
    Decodes 16 0b01000010_01101001 (.adcImm 0x42) ∧
    Decodes 24 0b10010010_00110100_01101101 (.adcAbs 0x9234) ∧
    Decodes 16 0b10010110_01110001 (.adcIndY 0x96) ∧
    Decodes 16 0b10010110_01110101 (.adcZpX 0x96) ∧
    Decodes 24 0b10010010_00110100_01111001 (.adcAbsY 0x9234) ∧
    Decodes 24 0b10010010_00110100_01111101 (.adcAbsX 0x9234) ∧
    Decodes 16 0b10010110_11100001 (.sbcIndX 0x96) ∧
    Decodes 16 0b10010110_11100101 (.sbcZp 0x96) ∧
    Decodes 16 0b01000010_11101001 (.sbcImm 0x42) ∧
    Decodes 24 0b10010010_00110100_11101101 (.sbcAbs 0x9234) ∧
    Decodes 16 0b10010110_11110001 (.sbcIndY 0x96) ∧
    Decodes 16 0b10010110_11110101 (.sbcZpX 0x96) ∧
    Decodes 24 0b10010010_00110100_11111001 (.sbcAbsY 0x9234) ∧
    Decodes 24 0b10010010_00110100_11111101 (.sbcAbsX 0x9234) := by
  decide +kernel

/-- Every logic row, its word written from the encoding column of its rule; i = 0x42, z = 0x96, o = 0xFE, hl = 0x9234. -/
theorem test_decode_logic :
    Decodes 16 0b10010110_00100001 (.andIndX 0x96) ∧
    Decodes 16 0b10010110_00100101 (.andZp 0x96) ∧
    Decodes 16 0b01000010_00101001 (.andImm 0x42) ∧
    Decodes 24 0b10010010_00110100_00101101 (.andAbs 0x9234) ∧
    Decodes 16 0b10010110_00110001 (.andIndY 0x96) ∧
    Decodes 16 0b10010110_00110101 (.andZpX 0x96) ∧
    Decodes 24 0b10010010_00110100_00111001 (.andAbsY 0x9234) ∧
    Decodes 24 0b10010010_00110100_00111101 (.andAbsX 0x9234) ∧
    Decodes 16 0b10010110_00000001 (.oraIndX 0x96) ∧
    Decodes 16 0b10010110_00000101 (.oraZp 0x96) ∧
    Decodes 16 0b01000010_00001001 (.oraImm 0x42) ∧
    Decodes 24 0b10010010_00110100_00001101 (.oraAbs 0x9234) ∧
    Decodes 16 0b10010110_00010001 (.oraIndY 0x96) ∧
    Decodes 16 0b10010110_00010101 (.oraZpX 0x96) ∧
    Decodes 24 0b10010010_00110100_00011001 (.oraAbsY 0x9234) ∧
    Decodes 24 0b10010010_00110100_00011101 (.oraAbsX 0x9234) ∧
    Decodes 16 0b10010110_01000001 (.eorIndX 0x96) ∧
    Decodes 16 0b10010110_01000101 (.eorZp 0x96) ∧
    Decodes 16 0b01000010_01001001 (.eorImm 0x42) ∧
    Decodes 24 0b10010010_00110100_01001101 (.eorAbs 0x9234) ∧
    Decodes 16 0b10010110_01010001 (.eorIndY 0x96) ∧
    Decodes 16 0b10010110_01010101 (.eorZpX 0x96) ∧
    Decodes 24 0b10010010_00110100_01011001 (.eorAbsY 0x9234) ∧
    Decodes 24 0b10010010_00110100_01011101 (.eorAbsX 0x9234) ∧
    Decodes 16 0b10010110_00100100 (.bitZp 0x96) ∧
    Decodes 24 0b10010010_00110100_00101100 (.bitAbs 0x9234) := by
  decide +kernel

/-- Every compares row, its word written from the encoding column of its rule; i = 0x42, z = 0x96, o = 0xFE, hl = 0x9234. -/
theorem test_decode_compares :
    Decodes 16 0b10010110_11000001 (.cmpIndX 0x96) ∧
    Decodes 16 0b10010110_11000101 (.cmpZp 0x96) ∧
    Decodes 16 0b01000010_11001001 (.cmpImm 0x42) ∧
    Decodes 24 0b10010010_00110100_11001101 (.cmpAbs 0x9234) ∧
    Decodes 16 0b10010110_11010001 (.cmpIndY 0x96) ∧
    Decodes 16 0b10010110_11010101 (.cmpZpX 0x96) ∧
    Decodes 24 0b10010010_00110100_11011001 (.cmpAbsY 0x9234) ∧
    Decodes 24 0b10010010_00110100_11011101 (.cmpAbsX 0x9234) ∧
    Decodes 16 0b01000010_11100000 (.cpxImm 0x42) ∧
    Decodes 16 0b10010110_11100100 (.cpxZp 0x96) ∧
    Decodes 24 0b10010010_00110100_11101100 (.cpxAbs 0x9234) ∧
    Decodes 16 0b01000010_11000000 (.cpyImm 0x42) ∧
    Decodes 16 0b10010110_11000100 (.cpyZp 0x96) ∧
    Decodes 24 0b10010010_00110100_11001100 (.cpyAbs 0x9234) := by
  decide +kernel

/-- Every increments and decrements row, its word written from the encoding column of its rule; i = 0x42, z = 0x96, o = 0xFE, hl = 0x9234. -/
theorem test_decode_increments_and_decrements :
    Decodes 16 0b10010110_11100110 (.incZp 0x96) ∧
    Decodes 24 0b10010010_00110100_11101110 (.incAbs 0x9234) ∧
    Decodes 16 0b10010110_11110110 (.incZpX 0x96) ∧
    Decodes 24 0b10010010_00110100_11111110 (.incAbsX 0x9234) ∧
    Decodes 16 0b10010110_11000110 (.decZp 0x96) ∧
    Decodes 24 0b10010010_00110100_11001110 (.decAbs 0x9234) ∧
    Decodes 16 0b10010110_11010110 (.decZpX 0x96) ∧
    Decodes 24 0b10010010_00110100_11011110 (.decAbsX 0x9234) ∧
    Decodes 8 0b11101000 (.inx) ∧
    Decodes 8 0b11001000 (.iny) ∧
    Decodes 8 0b11001010 (.dex) ∧
    Decodes 8 0b10001000 (.dey) := by
  decide +kernel

/-- Every shifts row, its word written from the encoding column of its rule; i = 0x42, z = 0x96, o = 0xFE, hl = 0x9234. -/
theorem test_decode_shifts :
    Decodes 16 0b10010110_00000110 (.aslZp 0x96) ∧
    Decodes 8 0b00001010 (.aslAcc) ∧
    Decodes 24 0b10010010_00110100_00001110 (.aslAbs 0x9234) ∧
    Decodes 16 0b10010110_00010110 (.aslZpX 0x96) ∧
    Decodes 24 0b10010010_00110100_00011110 (.aslAbsX 0x9234) ∧
    Decodes 16 0b10010110_01000110 (.lsrZp 0x96) ∧
    Decodes 8 0b01001010 (.lsrAcc) ∧
    Decodes 24 0b10010010_00110100_01001110 (.lsrAbs 0x9234) ∧
    Decodes 16 0b10010110_01010110 (.lsrZpX 0x96) ∧
    Decodes 24 0b10010010_00110100_01011110 (.lsrAbsX 0x9234) ∧
    Decodes 16 0b10010110_00100110 (.rolZp 0x96) ∧
    Decodes 8 0b00101010 (.rolAcc) ∧
    Decodes 24 0b10010010_00110100_00101110 (.rolAbs 0x9234) ∧
    Decodes 16 0b10010110_00110110 (.rolZpX 0x96) ∧
    Decodes 24 0b10010010_00110100_00111110 (.rolAbsX 0x9234) ∧
    Decodes 16 0b10010110_01100110 (.rorZp 0x96) ∧
    Decodes 8 0b01101010 (.rorAcc) ∧
    Decodes 24 0b10010010_00110100_01101110 (.rorAbs 0x9234) ∧
    Decodes 16 0b10010110_01110110 (.rorZpX 0x96) ∧
    Decodes 24 0b10010010_00110100_01111110 (.rorAbsX 0x9234) := by
  decide +kernel

/-- Every control row, its word written from the encoding column of its rule; i = 0x42, z = 0x96, o = 0xFE, hl = 0x9234. -/
theorem test_decode_control :
    Decodes 16 0b11111110_00010000 (.bpl 0xFE) ∧
    Decodes 16 0b11111110_00110000 (.bmi 0xFE) ∧
    Decodes 16 0b11111110_01010000 (.bvc 0xFE) ∧
    Decodes 16 0b11111110_01110000 (.bvs 0xFE) ∧
    Decodes 16 0b11111110_10010000 (.bcc 0xFE) ∧
    Decodes 16 0b11111110_10110000 (.bcs 0xFE) ∧
    Decodes 16 0b11111110_11010000 (.bne 0xFE) ∧
    Decodes 16 0b11111110_11110000 (.beq 0xFE) ∧
    Decodes 24 0b10010010_00110100_01001100 (.jmpAbs 0x9234) ∧
    Decodes 24 0b10010010_00110100_01101100 (.jmpInd 0x9234) ∧
    Decodes 8 0b00000000 (.brk) ∧
    Decodes 8 0b01000000 (.rti) ∧
    Decodes 24 0b10010010_00110100_00100000 (.jsr 0x9234) ∧
    Decodes 8 0b01100000 (.rts) := by
  decide +kernel

/-- Every flags row, its word written from the encoding column of its rule; i = 0x42, z = 0x96, o = 0xFE, hl = 0x9234. -/
theorem test_decode_flags :
    Decodes 8 0b00011000 (.clc) ∧
    Decodes 8 0b11011000 (.cld) ∧
    Decodes 8 0b01011000 (.cli) ∧
    Decodes 8 0b10111000 (.clv) ∧
    Decodes 8 0b00111000 (.sec) ∧
    Decodes 8 0b11111000 (.sed) ∧
    Decodes 8 0b01111000 (.sei) ∧
    Decodes 8 0b11101010 (.nop) := by
  decide +kernel

/-- The 105 bytes of R110 decode to `illegal`, each with its own byte. -/
theorem test_decode_illegal :
    illegalBytes.length = 105 ∧ illegalBytes.all (fun op => decodeTableWord 8 op.toNat == some (.illegal op)) = true := by
  decide +kernel

/-- A string that ends inside an instruction is rejected by name. -/
theorem test_decode_short : decode [] = .error .noOpcode ∧ decode [0xAD, 0x34] = .error .operandMissing := by decide

/-! ### One step -/

/-- What one step from `s` gives, seen through `f`. -/
def after {α : Type} (s : State) (f : State → α) : Option α :=
  match step s with
  | .next t => some (f t)
  | .fault _ => none
  | .refused _ => none

/-- The reset machine with its program ROM bytes given by address. -/
def withRom (bytes : List (Addr × Byte)) : State :=
  bytes.foldl (fun s c => s.setBus (s.bus.load c.1 c.2)) State.reset

/-- The reset machine with `bytes` of ROM and PC at 0x8000. -/
def at8000 (bytes : List (Addr × Byte)) : State := (withRom bytes).setPc 0x8000

/-- A6. -/
theorem test_lda_absX_page_cross : after { ((at8000 [(0x8000, 0xBD), (0x8001, 0xFF), (0x8002, 0x02)]).memWrite 0x0300 0x88) with x := 0x01 } (fun t => (t.a, t.p, t.pc, t.result.map StepResult.cycles)) = some (0x88, 0x80, 0x8003, some 5) := by decide

/-- A9. -/
theorem test_lda_indX_pointer_wraps : after { ((((at8000 [(0x8000, 0xA1), (0x8001, 0xFE)]).memWrite 0x00FF 0x00).memWrite 0x0000 0x03).memWrite 0x0300 0xAB) with x := 0x01 } (fun t => (t.a, t.pc, t.result.map StepResult.cycles)) = some (0xAB, 0x8002, some 6) := by decide

/-- A3. -/
theorem test_ldx_zpY_wraps : after { ((at8000 [(0x8000, 0xB6), (0x8001, 0xFF)]).memWrite 0x0001 0x55) with y := 0x02 } (fun t => (t.x, t.pc, t.result.map StepResult.cycles)) = some (0x55, 0x8002, some 4) := by decide

/-- L4. -/
theorem test_ldy_negative : after (at8000 [(0x8000, 0xA0), (0x8001, 0xFF)]) (fun t => (t.y, t.p)) = some (0xFF, 0x80) := by decide

/-- B4. -/
theorem test_lda_unmapped_reads_sentinel : after (at8000 [(0x8000, 0xAD), (0x8001, 0x18), (0x8002, 0x40)]) (fun t => (t.a, t.p, t.trace)) = some (0xFF, 0x80, [.openBusRead 0x4018]) := by decide

/-- A14. -/
theorem test_sta_absX_no_penalty : after { at8000 [(0x8000, 0x9D), (0x8001, 0xFF), (0x8002, 0x02)] with x := 0x01, a := 0x42 } (fun t => (t.bus.read 0x0300, t.pc, t.result.map StepResult.cycles)) = some (0x42, 0x8003, some 5) := by decide

/-- L6. -/
theorem test_stx_zp_keeps_flags : after { at8000 [(0x8000, 0x86), (0x8001, 0x10)] with x := 0x80 } (fun t => (t.bus.read 0x0010, t.p)) = some (0x80, 0x00) := by decide

/-- L7. -/
theorem test_sty_rom_write_ignored : after { at8000 [(0x8000, 0x8C), (0x8001, 0x00), (0x8002, 0x80)] with y := 0x12 } (fun t => (t.bus.read 0x8000, t.trace)) = some (0x8C, [.romWrite 0x8000]) := by decide

/-- L8. -/
theorem test_tax : after { at8000 [(0x8000, 0xAA)] with a := 0x80 } (fun t => (t.x, t.p, t.pc)) = some (0x80, 0x80, 0x8001) := by decide

/-- L9. -/
theorem test_tay : after { at8000 [(0x8000, 0xA8)] with y := 0x12 } (fun t => (t.y, t.p)) = some (0x00, 0x02) := by decide

/-- L10. -/
theorem test_tsx : after { at8000 [(0x8000, 0xBA)] with sp := 0x00, p := 0x80 } (fun t => (t.x, t.p)) = some (0x00, 0x02) := by decide

/-- L13. -/
theorem test_txa : after { at8000 [(0x8000, 0x8A)] with x := 0xFF } (fun t => (t.a, t.p)) = some (0xFF, 0x80) := by decide

/-- L11. -/
theorem test_txs_writes_no_flag : after (at8000 [(0x8000, 0x9A)]) (fun t => (t.sp, t.p)) = some (0x00, 0x00) := by decide

/-- L14. -/
theorem test_tya : after { at8000 [(0x8000, 0x98)] with a := 0x12 } (fun t => (t.a, t.p)) = some (0x00, 0x02) := by decide

/-- S1. -/
theorem test_pha_wraps : after { at8000 [(0x8000, 0x48)] with a := 0x42, sp := 0x00 } (fun t => (t.bus.read 0x0100, t.sp)) = some (0x42, 0xFF) := by decide

/-- S2. -/
theorem test_pla_wraps : after { ((at8000 [(0x8000, 0x68)]).memWrite 0x0100 0x80) with sp := 0xFF } (fun t => (t.a, t.sp, t.p)) = some (0x80, 0x00, 0x80) := by decide

/-- S4. -/
theorem test_php_pushes_p_as_stored : after (((at8000 [(0x8000, 0x08)]).memWrite 0x01FD 0x77)) (fun t => (t.bus.read 0x01FD, t.sp)) = some (0x00, 0xFC) := by decide

/-- S5. -/
theorem test_plp_loads_all_bits : after { ((at8000 [(0x8000, 0x28)]).memWrite 0x01FD 0x30) with sp := 0xFC } (fun t => (t.p, t.sp)) = some (0x30, 0xFD) := by decide

/-- AD7. -/
theorem test_adc_overflow : after { at8000 [(0x8000, 0x69), (0x8001, 0x90)] with a := 0xD0 } (fun t => (t.a, t.p)) = some (0x60, 0x41) := by decide

/-- AD14. -/
theorem test_adc_ignores_decimal : after { at8000 [(0x8000, 0x69), (0x8001, 0x01)] with a := 0x09, p := 0x08 } (fun t => (t.a, t.p)) = some (0x0A, 0x08) := by decide

/-- SB12. -/
theorem test_sbc_overflow : after { at8000 [(0x8000, 0xE9), (0x8001, 0xFF)] with a := 0x7F, p := 0x01 } (fun t => (t.a, t.p)) = some (0x80, 0xC0) := by decide

/-- SB10. -/
theorem test_sbc_borrow_in : after (at8000 [(0x8000, 0xE9), (0x8001, 0x00)]) (fun t => (t.a, t.p)) = some (0xFF, 0x80) := by decide

/-- LG2. -/
theorem test_and : after { at8000 [(0x8000, 0x29), (0x8001, 0x80)] with a := 0xFF, p := 0x02 } (fun t => (t.a, t.p)) = some (0x80, 0x80) := by decide

/-- LG3. -/
theorem test_ora : after { at8000 [(0x8000, 0x09), (0x8001, 0x80)] with a := 0x01 } (fun t => (t.a, t.p)) = some (0x81, 0x80) := by decide

/-- LG6. -/
theorem test_eor_keeps_carry_and_overflow : after { at8000 [(0x8000, 0x49), (0x8001, 0xFF)] with a := 0x0F, p := 0x43 } (fun t => (t.a, t.p)) = some (0xF0, 0xC1) := by decide

/-- BT1. -/
theorem test_bit : after { ((at8000 [(0x8000, 0x24), (0x8001, 0x10)]).memWrite 0x0010 0xC0) with a := 0x01 } (fun t => (t.a, t.p)) = some (0x01, 0xC2) := by decide

/-- CM6. -/
theorem test_cmp_is_unsigned : after { at8000 [(0x8000, 0xC9), (0x8001, 0x80)] with p := 0x40 } (fun t => (t.a, t.p)) = some (0x00, 0xC0) := by decide

/-- CM8. -/
theorem test_cpx_equal : after { at8000 [(0x8000, 0xE0), (0x8001, 0x05)] with x := 0x05 } (fun t => t.p) = some 0x03 := by decide

/-- CM9. -/
theorem test_cpy_less : after { at8000 [(0x8000, 0xC0), (0x8001, 0x06)] with y := 0x05 } (fun t => t.p) = some 0x80 := by decide

/-- ID1. -/
theorem test_inc_wraps : after (((at8000 [(0x8000, 0xE6), (0x8001, 0x10)]).memWrite 0x0010 0xFF)) (fun t => (t.bus.read 0x0010, t.p)) = some (0x00, 0x02) := by decide

/-- ID2. -/
theorem test_dec_wraps : after (at8000 [(0x8000, 0xC6), (0x8001, 0x10)]) (fun t => (t.bus.read 0x0010, t.p)) = some (0xFF, 0x80) := by decide

/-- ID6. -/
theorem test_inx : after { at8000 [(0x8000, 0xE8)] with x := 0xFF } (fun t => (t.x, t.p)) = some (0x00, 0x02) := by decide

/-- ID7. -/
theorem test_iny : after { at8000 [(0x8000, 0xC8)] with y := 0x7F } (fun t => (t.y, t.p)) = some (0x80, 0x80) := by decide

/-- ID8. -/
theorem test_dex : after (at8000 [(0x8000, 0xCA)]) (fun t => (t.x, t.p)) = some (0xFF, 0x80) := by decide

/-- ID9. -/
theorem test_dey : after { at8000 [(0x8000, 0x88)] with y := 0x01, p := 0x80 } (fun t => (t.y, t.p)) = some (0x00, 0x02) := by decide

/-- SH9. -/
theorem test_asl_memory_keeps_overflow : after { ((at8000 [(0x8000, 0x06), (0x8001, 0x10)]).memWrite 0x0010 0xC1) with p := 0x40 } (fun t => (t.bus.read 0x0010, t.p)) = some (0x82, 0xC1) := by decide

/-- SH3. -/
theorem test_lsr_accumulator : after { at8000 [(0x8000, 0x4A)] with a := 0x01, p := 0x80 } (fun t => (t.a, t.p)) = some (0x00, 0x03) := by decide

/-- SH5. -/
theorem test_rol_accumulator : after { at8000 [(0x8000, 0x2A)] with a := 0x80, p := 0x01 } (fun t => (t.a, t.p)) = some (0x01, 0x01) := by decide

/-- SH7. -/
theorem test_ror_accumulator : after { at8000 [(0x8000, 0x6A)] with a := 0x01, p := 0x01 } (fun t => (t.a, t.p)) = some (0x80, 0x81) := by decide

/-- C4. -/
theorem test_bpl : after { at8000 [(0x8000, 0x10), (0x8001, 0x80)] with p := 0x00 } (fun t => (t.pc, t.result.map StepResult.cycles)) = some (0x7F82, some 4) := by decide

/-- C5. -/
theorem test_bmi : after { at8000 [(0x8000, 0x30), (0x8001, 0xFE)] with p := 0x80 } (fun t => (t.pc, t.result.map StepResult.cycles)) = some (0x8000, some 3) := by decide

/-- C9. -/
theorem test_bvs : after { at8000 [(0x8000, 0x70), (0x8001, 0x00)] with p := 0x40 } (fun t => (t.pc, t.result.map StepResult.cycles)) = some (0x8002, some 3) := by decide

/-- C2. -/
theorem test_bne_not_taken : after { at8000 [(0x8000, 0xD0), (0x8001, 0x00)] with p := 0x02 } (fun t => (t.pc, t.result.map StepResult.cycles)) = some (0x8002, some 2) := by decide

/-- C3. -/
theorem test_beq : after { at8000 [(0x8000, 0xF0), (0x8001, 0x7F)] with p := 0x02 } (fun t => (t.pc, t.result.map StepResult.cycles)) = some (0x8081, some 3) := by decide

/-- C8. -/
theorem test_bvc_wraps : after { withRom [(0xFFF0, 0x50), (0xFFF1, 0x10)] with pc := 0xFFF0, p := 0x00 } (fun t => (t.pc, t.result.map StepResult.cycles)) = some (0x0002, some 4) := by decide

/-- C6. -/
theorem test_bcc_same_page : after { withRom [(0x80F0, 0x90), (0x80F1, 0x0D)] with pc := 0x80F0, p := 0x00 } (fun t => (t.pc, t.result.map StepResult.cycles)) = some (0x80FF, some 3) := by decide

/-- C7. -/
theorem test_bcs_page_of_next_instruction : after { withRom [(0x80FD, 0xB0), (0x80FE, 0x01)] with pc := 0x80FD, p := 0x01 } (fun t => (t.pc, t.result.map StepResult.cycles)) = some (0x8100, some 4) := by decide

/-- A19. -/
theorem test_jmp_operand_wraps_past_the_top : after { (withRom [(0xFFFE, 0x4C), (0xFFFF, 0x00)]).memWrite 0x0000 0x80 with pc := 0xFFFE } (fun t => t.pc) = some 0x8000 := by decide

/-- C11. -/
theorem test_jmp_indirect_page_wrap : after (((((at8000 [(0x8000, 0x6C), (0x8001, 0xFF), (0x8002, 0x02)]).memWrite 0x02FF 0x34).memWrite 0x0200 0x12).memWrite 0x0300 0x99)) (fun t => (t.pc, t.result.map StepResult.cycles)) = some (0x1234, some 5) := by decide

/-- C14. -/
theorem test_jsr_stack_wraps : after { withRom [(0x80FE, 0x20), (0x80FF, 0x00), (0x8100, 0x90)] with pc := 0x80FE, sp := 0x00 } (fun t => (t.bus.read 0x0100, t.bus.read 0x01FF, t.sp, t.pc)) = some (0x81, 0x00, 0xFE, 0x9000) := by decide

/-- C15. -/
theorem test_rts_adds_one : after { (((at8000 [(0x8000, 0x60)]).memWrite 0x01FC 0x02).memWrite 0x01FD 0x80) with sp := 0xFB } (fun t => (t.sp, t.pc)) = some (0xFD, 0x8003) := by decide

/-- W5, the worked example of the source: the BRK byte at 0x1233 is RAM. -/
theorem test_brk_enters : after { withRom [(0xFFFE, 0x00), (0xFFFF, 0x80)] with pc := 0x1233, sp := 0xFF } (fun t => (t.bus.read 0x01FF, t.bus.read 0x01FE, t.bus.read 0x01FD, t.sp, t.p, t.pc)) = some (0x12, 0x34, 0x00, 0xFC, 0x04, 0x8000) := by decide

/-- C19. -/
theorem test_rti_adds_nothing : after { ((((at8000 [(0x8000, 0x40)]).memWrite 0x01FB 0x30).memWrite 0x01FC 0x01).memWrite 0x01FD 0x80) with sp := 0xFA, p := 0x04 } (fun t => (t.p, t.sp, t.pc)) = some (0x30, 0xFD, 0x8001) := by decide

/-- F1. -/
theorem test_clc : after { at8000 [(0x8000, 0x18)] with p := 0xFF } (fun t => (t.p, t.pc)) = some (0xFE, 0x8001) := by decide

/-- F2. -/
theorem test_sec : after { at8000 [(0x8000, 0x38)] with p := 0x00 } (fun t => (t.p, t.pc)) = some (0x01, 0x8001) := by decide

/-- F3. -/
theorem test_cld : after { at8000 [(0x8000, 0xD8)] with p := 0xFF } (fun t => (t.p, t.pc)) = some (0xF7, 0x8001) := by decide

/-- F4. -/
theorem test_sed : after { at8000 [(0x8000, 0xF8)] with p := 0x00 } (fun t => (t.p, t.pc)) = some (0x08, 0x8001) := by decide

/-- F5. -/
theorem test_cli : after { at8000 [(0x8000, 0x58)] with p := 0xFF } (fun t => (t.p, t.pc)) = some (0xFB, 0x8001) := by decide

/-- F6. -/
theorem test_sei : after { at8000 [(0x8000, 0x78)] with p := 0x00 } (fun t => (t.p, t.pc)) = some (0x04, 0x8001) := by decide

/-- F7. -/
theorem test_clv : after { at8000 [(0x8000, 0xB8)] with p := 0xFF } (fun t => (t.p, t.pc)) = some (0xBF, 0x8001) := by decide

/-- F8. -/
theorem test_nop : after { at8000 [(0x8000, 0xEA)] with p := 0xA5 } (fun t => (t.p, t.pc)) = some (0xA5, 0x8001) := by decide

/-- IL1. -/
theorem test_illegal_byte : after { at8000 [(0x8000, 0x02)] with a := 0x12, p := 0xA5 } (fun t => (t.a, t.p, t.pc, t.result)) = some (0x12, 0xA5, 0x8001, some ⟨2, some (.unimplementedOpcode 0x02 0x8000)⟩) := by decide +kernel

/-- IL5. -/
theorem test_fetch_from_unmapped : after { State.reset with pc := 0x5000 } (fun t => (t.pc, t.trace)) = some (0x5001, [.openBusRead 0x5000, .unimplementedOpcode 0xFF 0x5000]) := by decide

/-- The first step after reset runs a placed table word: LDA #$42, word 0x42A9. -/
theorem test_withFetchWord : after (State.reset.withFetchWord 16 0x42A9) (fun t => t.a) = some 0x42 := by decide

/-- The same where PC is Unmapped: the word is placed in ROM. -/
theorem test_withFetchWord_unmapped :
    after (({ State.reset with pc := 0x7FFE } : State).withFetchWord 24 0x12344C) (fun t => t.pc) = some 0x1234 := by decide

/-- RS3: PC after reset is the vector word, whatever it is. -/
theorem test_reset_vector : ((withRom [(0xFFFC, 0xFD), (0xFFFD, 0xFF)]).hostReset).pc = 0xFFFD := by decide

/-- PV6, PV9 and PV12: too short, wrong magic, and a container of nothing but a header. -/
theorem test_parse :
    parse [0x4E, 0x45, 0x53, 0x1A, 0x01, 0, 0, 0, 0, 0, 0, 0, 0, 0, 0] = .error (.formatInvalid .tooShort) ∧
    parse [0x4E, 0x45, 0x53, 0, 0, 0, 0, 0, 0, 0, 0, 0, 0, 0, 0, 0] = .error (.formatInvalid .badMagic) ∧
    parse [0x4E, 0x45, 0x53, 0x1A, 0, 0, 0, 0, 0, 0, 0, 0, 0, 0, 0, 0] =
      .ok ⟨⟨0, []⟩, ⟨0, []⟩, 0, 0x00, .horizontal⟩ := by decide

/-- PV5: the mapper id from flags 0xF1 and 0xA5, and its mirroring. -/
theorem test_header_fields : mapperIdOf 0xF1 0xA5 = 0xAF ∧ mirroringOf 0xF1 = .vertical ∧ mirroringOf 0x09 = .fourScreen := by
  decide

/-! ### Witnesses: for each statement with hypotheses, data that meets all of them -/

theorem witness_DecodeOfEncode : (Instr.illegal 0x02).wellFormed ∧ (Instr.staAbsX 0xFFFF).wellFormed := by decide

theorem witness_EncodeOfDecode : decode [0x8D, 0x34, 0x12, 0xEA] = .ok (.staAbs 0x1234, [0xEA]) := by decide

theorem witness_DecodeTakesDescriptorLength :
    (descriptor 0x6C).length - 1 ≤ ([0xFF, 0x02] : List Byte).length ∧ (descriptor 0xEA).length - 1 ≤ ([] : List Byte).length := by
  decide

theorem witness_TableAgreesWithInstructions :
    (Instr.jmpInd 0x02FF).wellFormed ∧ (descriptor 0xFF).mnemonic = .illegal ∧ (0xFF : Byte) ∈ illegalBytes := by decide

/-- Both ends of every window, from the boundary table of 95_test_vectors.md. -/
theorem witness_DecodeWindows :
    ([0x0000, 0x1FFF, 0x2000, 0x3FFF, 0x4000, 0x4017, 0x4018, 0x7FFF, 0x8000, 0xFFFF] : List Addr).map Bus.blank.target =
      [.ram 0, .ram 0x7FF, .ppu 0, .ppu 7, .io 0, .io 23, .unmapped, .unmapped, .rom 0, .rom 0x3FFF] := by decide

theorem witness_RamMirrorRoundTrip :
    State.reset.wf ∧ (0x1FFF : Addr).toNat < 0x2000 ∧ (0x07FF : Addr).toNat < 0x2000 ∧
      (0x07FF : Addr).toNat % 0x0800 = (0x1FFF : Addr).toNat % 0x0800 := by decide

theorem witness_StubsAreShadowStorage :
    State.reset.wf ∧
    (0x2000 ≤ (0x3FFF : Addr).toNat ∧ (0x3FFF : Addr).toNat < 0x4000 ∧ 0x2000 ≤ (0x2007 : Addr).toNat ∧
      (0x2007 : Addr).toNat < 0x4000 ∧ (0x2007 : Addr).toNat % 8 = (0x3FFF : Addr).toNat % 8) ∧
    (0x4000 ≤ (0x4017 : Addr).toNat ∧ (0x4017 : Addr).toNat < 0x4018) := by decide

/-- A bus with a 32 KiB program ROM. -/
def bus32 : Bus := { Bus.blank with image := { CartridgeImage.blank with prgRom := ⟨32768, []⟩ } }

theorem witness_RomMirroring :
    0x8000 ≤ (0xC000 : Addr).toNat ∧ Bus.blank.prg.size = 16384 ∧ 0xC000 ≤ (0xC000 : Addr).toNat ∧ bus32.prg.size = 32768 := by
  decide

theorem witness_RomWriteIgnored :
    0x8000 ≤ (0x8000 : Addr).toNat ∧ storedTo (.staAbs 0x8000) State.reset = [0x8000] ∧
      storedTo (.incAbs 0xFFFF) State.reset = [0xFFFF] := by decide

theorem witness_UnmappedAccess :
    0x4018 ≤ (0x4018 : Addr).toNat ∧ (0x4018 : Addr).toNat < 0x8000 ∧ 0x4018 ≤ (0x7FFF : Addr).toNat ∧
      (0x7FFF : Addr).toNat < 0x8000 := by decide

theorem witness_StepRunsDecodedInstruction :
    (at8000 [(0x8000, 0x8D), (0x8001, 0x34), (0x8002, 0x12)]).run = .ready ∧
      (decode ([0x8000, 0x8001, 0x8002].map
        (at8000 [(0x8000, 0x8D), (0x8001, 0x34), (0x8002, 0x12)]).bus.read)) = .ok (.staAbs 0x1234, []) := by decide

theorem witness_StepKeepsWellFormed : State.reset.wf ∧ ∃ t, step State.reset = .next t := ⟨by decide, _, rfl⟩

theorem witness_ReadyRunsForever : State.reset.run = .ready := rfl

theorem witness_HaltedIsStuckUntilReset : State.reset.hostAbort.run = .halted := rfl

theorem witness_RomNeverChanges : (∃ t, step State.reset = .next t) ∧ 0x8000 ≤ (0x8000 : Addr).toNat :=
  ⟨⟨_, rfl⟩, by decide⟩

theorem witness_OutputsAreNeverRead : State.reset.run = .ready := rfl

theorem witness_ImageFieldsAreNeverRead :
    State.reset.run = .ready ∧
      ({ CartridgeImage.blank with mapperId := 0xAF, trainer := 512, mirroring := .fourScreen } : CartridgeImage).prgRom =
        State.reset.bus.image.prgRom := ⟨rfl, rfl⟩

/-- One state for each branch of the condition. -/
theorem witness_ConditionExactlyOnIllegalBytes :
    (at8000 [(0x8000, 0xFF)]).run = .ready ∧ (at8000 [(0x8000, 0xFF)]).bus.read 0x8000 ∈ illegalBytes ∧
      (at8000 [(0x8000, 0xEA)]).run = .ready ∧ (at8000 [(0x8000, 0xEA)]).bus.read 0x8000 ∉ illegalBytes := by decide

/-- A write of each register, the accumulator form included. -/
theorem witness_RegisterWriters :
    (∃ t, exec (.ldaImm 0x01) State.reset = .next t ∧ t.a ≠ State.reset.a) ∧
    (∃ t, exec .rorAcc { State.reset with p := 0x01 } = .next t ∧ t.a ≠ State.reset.a) ∧
    (∃ t, exec .dex State.reset = .next t ∧ t.x ≠ State.reset.x) ∧
    (∃ t, exec .dey State.reset = .next t ∧ t.y ≠ State.reset.y) ∧
    (∃ t, exec .txs State.reset = .next t ∧ t.sp ≠ State.reset.sp) ∧
    (∃ t, exec (.jmpAbs 0xFFFF) State.reset = .next t ∧ t.pc ≠ State.reset.pc) :=
  ⟨⟨_, rfl, by decide⟩, ⟨_, rfl, by decide⟩, ⟨_, rfl, by decide⟩, ⟨_, rfl, by decide⟩, ⟨_, rfl, by decide⟩,
    ⟨_, rfl, by decide⟩⟩

/-- A write of each flag; B and R by PLP. -/
theorem witness_FlagWriters :
    (∃ t, exec .sec State.reset = .next t ∧ getFlag .c t.p ≠ getFlag .c State.reset.p) ∧
    (∃ t, exec (.ldaImm 0x00) State.reset = .next t ∧ getFlag .z t.p ≠ getFlag .z State.reset.p) ∧
    (∃ t, exec (.ldaImm 0x80) State.reset = .next t ∧ getFlag .n t.p ≠ getFlag .n State.reset.p) ∧
    (∃ t, exec .brk State.reset = .next t ∧ getFlag .i t.p ≠ getFlag .i State.reset.p) ∧
    (∃ t, exec .sed State.reset = .next t ∧ getFlag .d t.p ≠ getFlag .d State.reset.p) ∧
    (∃ t, exec (.bitZp 0x10) (State.reset.memWrite 0x0010 0x40) = .next t ∧ getFlag .v t.p ≠ getFlag .v State.reset.p) ∧
    (∃ t, exec .plp (State.reset.memWrite 0x01FE 0x30) = .next t ∧ getFlag .b t.p ≠ getFlag .b State.reset.p ∧
      getFlag .r t.p ≠ getFlag .r State.reset.p) :=
  ⟨⟨_, rfl, by decide⟩, ⟨_, rfl, by decide⟩, ⟨_, rfl, by decide⟩, ⟨_, rfl, by decide⟩, ⟨_, rfl, by decide⟩,
    ⟨_, rfl, by decide⟩, ⟨_, rfl, by decide, by decide⟩⟩

/-- The byte beside a store, beside the three stack bytes of BRK, and any byte for a load. -/
theorem witness_MemoryFrame :
    (∃ t, exec (.staZp 0x10) State.reset = .next t) ∧
    (∀ a ∈ storedTo (.staZp 0x10) State.reset, Bus.blank.target 0x0011 ≠ Bus.blank.target a) ∧
    (∃ t, exec .brk State.reset = .next t) ∧
    (∀ a ∈ storedTo .brk State.reset, Bus.blank.target 0x01FA ≠ Bus.blank.target a) ∧
    storedTo (.ldaZp 0x10) State.reset = [] :=
  by
  refine ⟨⟨_, rfl⟩, fun a ha => ?_, ⟨_, rfl⟩, fun a ha => ?_, rfl⟩
  · obtain rfl : a = 0x0010 := List.mem_singleton.mp ha
    decide
  · simp only [storedTo, Instr.mnemonic, List.mem_cons, List.not_mem_nil, or_false] at ha
    obtain rfl | rfl | rfl := ha <;> decide

theorem witness_LoadInstructions :
    [(Instr.ldaIndY 0xFF).mnemonic, (Instr.ldxZpY 0xFF).mnemonic, (Instr.ldyImm 0x00).mnemonic] = [.lda, .ldx, .ldy] := rfl

theorem witness_StoreInstructions :
    [(Instr.staIndX 0xFF).mnemonic, (Instr.stxZpY 0xFF).mnemonic, (Instr.styAbs 0xFFFF).mnemonic] = [.sta, .stx, .sty] := rfl

theorem witness_PushPullRoundTrip : ({ State.reset with sp := 0x00 } : State).wf := by decide

theorem witness_AdcAddsWithCarry : (Instr.adcImm 0xFF).mnemonic = .adc := rfl

theorem witness_SbcSubtractsWithBorrow : (Instr.sbcAbsX 0xFFFF).mnemonic = .sbc := rfl

theorem witness_DecimalFlagIgnored : [(Instr.adcImm 0x01).mnemonic, (Instr.sbcImm 0x01).mnemonic] = [.adc, .sbc] := rfl

theorem witness_LogicInstructions :
    [(Instr.andImm 0x0F).mnemonic, (Instr.oraZpX 0xFF).mnemonic, (Instr.eorIndY 0x40).mnemonic] = [.and, .ora, .eor] := rfl

theorem witness_BitTestsMemory : (Instr.bitAbs 0x2000).mnemonic = .bit := rfl

theorem witness_CompareInstructions :
    [(Instr.cmpIndX 0x20).mnemonic, (Instr.cpxZp 0x10).mnemonic, (Instr.cpyImm 0x06).mnemonic] = [.cmp, .cpx, .cpy] := rfl

theorem witness_IncDecMemory : [(Instr.incAbsX 0x02FF).mnemonic, (Instr.decZp 0x10).mnemonic] = [.inc, .dec] := rfl

theorem witness_ShiftInstructions :
    [Instr.aslAcc.mnemonic, (Instr.aslAbsX 0x02FF).mnemonic, Instr.lsrAcc.mnemonic, (Instr.lsrZp 0x10).mnemonic] =
      [.asl, .asl, .lsr, .lsr] := rfl

theorem witness_RotateInstructions :
    [Instr.rolAcc.mnemonic, (Instr.rolZpX 0xFF).mnemonic, Instr.rorAcc.mnemonic, (Instr.rorAbs 0x0000).mnemonic] =
      [.rol, .rol, .ror, .ror] := rfl

/-- The stack wraps between the two pushes. -/
theorem witness_JsrRtsRoundTrip :
    ({ State.reset with sp := 0x00 } : State).wf ∧
      ∃ s₁ u : State, exec (.jsr 0x9000) { State.reset with sp := 0x00 } = .next s₁ ∧ u.sp = s₁.sp ∧
        ∀ k : Byte, k = s₁.sp + 1 ∨ k = s₁.sp + 2 → u.bus.read (stackAddr k) = s₁.bus.read (stackAddr k) :=
  ⟨by decide, _, _, rfl, rfl, fun _ _ => rfl⟩

theorem witness_BrkRtiRoundTrip :
    ({ State.reset with sp := 0x01, p := 0xFF } : State).wf ∧
      ∃ s₁ u : State, exec .brk { State.reset with sp := 0x01, p := 0xFF } = .next s₁ ∧ u.sp = s₁.sp ∧
        ∀ k : Byte, k = s₁.sp + 1 ∨ k = s₁.sp + 2 ∨ k = s₁.sp + 3 →
          u.bus.read (stackAddr k) = s₁.bus.read (stackAddr k) :=
  ⟨by decide, _, _, rfl, rfl, fun _ _ => rfl⟩

theorem witness_IllegalByteReportsAndGoesOn : (Instr.illegal 0x02).wellFormed ∧ (Instr.illegal 0xFF).wellFormed := by decide

/-- One input for each clause: 15 bytes, 16 bytes with no magic, and a header with one byte too many. -/
theorem witness_ParseRejects :
    (List.replicate 15 (0x00 : Byte)).length < 16 ∧
    (16 ≤ (List.replicate 16 (0x00 : Byte)).length ∧
      (List.replicate 16 (0x00 : Byte)).take 4 ≠ [0x4E, 0x45, 0x53, 0x1A]) ∧
    (16 ≤ (magic ++ List.replicate 13 0x00).length ∧ (magic ++ List.replicate 13 0x00).take 4 = [0x4E, 0x45, 0x53, 0x1A] ∧
      (magic ++ List.replicate 13 0x00).length ≠ expectedSize (magic ++ List.replicate 13 0x00)) := by decide

/-- A container with a trainer, one block of each ROM, and mapper and mirroring bits. -/
def container (prgBlocks chrBlocks flags6 : Byte) (body : Nat) : List Byte :=
  magic ++ [prgBlocks, chrBlocks, flags6, 0xA5] ++ List.replicate 8 0x00 ++ List.replicate body 0x11

theorem container_length (a b c : Byte) (n : Nat) : (container a b c n).length = 16 + n := by
  simp [container, magic]; omega

theorem witness_ParseAccepts :
    16 ≤ (container 0x01 0x01 0x0D 25088).length ∧ (container 0x01 0x01 0x0D 25088).take 4 = [0x4E, 0x45, 0x53, 0x1A] ∧
    (container 0x01 0x01 0x0D 25088).length = 16
      + (if ((container 0x01 0x01 0x0D 25088).getD 6 0).getLsbD 2 then 512 else 0)
      + 16384 * ((container 0x01 0x01 0x0D 25088).getD 4 0).toNat
      + 8192 * ((container 0x01 0x01 0x0D 25088).getD 5 0).toNat := by
  rw [container_length]
  exact ⟨by omega, rfl, rfl⟩

theorem witness_BusConstruction :
    ((0 : Nat) ≠ 16384 ∧ (0 : Nat) ≠ 32768) ∧ CartridgeImage.blank.prgRom.size = 16384 ∧ bus32.image.prgRom.size = 32768 ∧
      CartridgeImage.blank.wf ∧ bus32.image.wf := by decide

/-- The minimal valid image (PV1) boots, whatever the OPEN contents are. -/
theorem witness_BootedMachine (init : PowerOn) : ∃ s, boot (container 0x01 0x00 0x00 16384) init = .ok s := by
  have hl := container_length 0x01 0x00 0x00 16384
  have hv : validate (container 0x01 0x00 0x00 16384) = .ok () := by
    rw [validate, hl]; rfl
  have he : (container 0x01 0x00 0x00 16384).length = expectedSize (container 0x01 0x00 0x00 16384) := by rw [hl]; rfl
  have hs (a n : Nat) (h : a + n ≤ 16400) : slice (container 0x01 0x00 0x00 16384) a n =
      .ok (((container 0x01 0x00 0x00 16384).drop a).take n) := by rw [slice, hl, if_pos h]
  have hp : prgSizeOf (container 0x01 0x00 0x00 16384) = 16384 := rfl
  have hc : chrSizeOf (container 0x01 0x00 0x00 16384) = 0 := rfl
  have ht : trainerOf (container 0x01 0x00 0x00 16384) = 0 := rfl
  have hlen : (ByteSeq.ofList (((container 0x01 0x00 0x00 16384).drop 16).take 16384)).size = 16384 := by
    show (List.take _ _).length = _
    rw [List.length_take, List.length_drop, hl]; rfl
  simp only [boot, parse, hv, ne_eq, he, not_true_eq_false, if_false, hp, hc, ht, Config.headerSize, Nat.add_zero,
    hs 16 16384 (by decide), hs (16 + 16384) 0 (by decide), newBus, hlen]
  exact ⟨_, rfl⟩

end Sys2Proof.Tests
end

section
/-! PROOFS, 00_scope. `SetReg(R, v)`: what it does to the general registers and to the status byte (R14). -/

namespace Sys2Proof.Machine

/-- Writing the status byte leaves the general registers. -/
@[simp] theorem State.reg_setP (s : State) (q : Reg) (p : Byte) : (s.setP p).reg q = s.reg q := by
  cases q <;> rfl

/-- `SetReg(R, v)` writes the named register and leaves the others (R14). -/
theorem State.reg_setRegZN (s : State) (r q : Reg) (v : Byte) :
    (s.setRegZN r v).reg q = if q = r then v else s.reg q := by
  rw [State.setRegZN, State.reg_setReg, State.reg_setP]

/-- Bit 7 of a byte is set exactly from 128 on: the N of `SetZN(v)` as an unsigned comparison (R26). -/
theorem getLsbD_seven_eq_decide (v : Byte) : v.getLsbD 7 = decide (128 ≤ v.toNat) := by
  rw [← BitVec.msb_eq_decide v]
  exact (BitVec.msb_eq_getLsbD_last v).symm

/-- The flags of `SetZN(v)`, written as conditions on `v` (R26). -/
theorem znOf_eq_decide (v : Byte) : znOf v = [(.z, decide (v = 0)), (.n, decide (128 ≤ v.toNat))] := by
  rw [znOf, getLsbD_seven_eq_decide, beq_eq_decide]

/-- Settles O31: `SetReg(R, v)` writes one register, and its flags are those of `SetZN(v)`. -/
theorem setRegRecomputesZN : Obligations.SetRegRecomputesZN := by
  unfold Obligations.SetRegRecomputesZN
  intro s r v
  refine ⟨?named, ?others, ?flags⟩
  case named => rw [State.reg_setRegZN, if_pos rfl]
  case others =>
    intro q hq
    rw [State.reg_setRegZN, if_neg hq]
  case flags =>
    rw [State.setRegZN_p, ← znOf_eq_decide]
    exact flagsAre_setZN v s.p

end Sys2Proof.Machine
end

section
/-! PROOFS, 10_state. What a step keeps: the invariant and the program ROM (R31, R33). -/

namespace Sys2Proof.Machine

/-- A step in Ready runs the fetched instruction (R130). -/
theorem step_of_ready (s : State) (h : s.run = .ready) : step s = exec s.fetchedInstr s.afterInstr := by
  rw [step, h]

/-- A state that answers a next state is Ready: Halted has no transition (R152). -/
theorem ready_of_step_next (s t : State) (h : step s = .next t) : s.run = .ready := by
  cases hr : s.run with
  | ready => rfl
  | halted => rw [step, hr] at h; cases h

/-- Fetching leaves the bus. -/
@[simp] theorem State.afterInstr_bus (s : State) : s.afterInstr.bus = s.bus := by rw [State.afterInstr_eq]

/-- A step changes the bus by bus writes alone. -/
theorem step_bus_writes (s t : State) (h : step s = .next t) : ∃ ws, t.bus = s.bus.writes ws := by
  rw [step_of_ready s (ready_of_step_next s t h)] at h
  obtain ⟨u, hu, -, ws, hws, -⟩ := exec_effect s.fetchedInstr s.afterInstr
  obtain rfl : u = t := Host.Outcome.next.inj (hu.symm.trans h)
  exact ⟨ws, by rw [hws, State.afterInstr_bus]⟩

/-- Settles O17: a step changes the bus by writes alone, and each write keeps the canonical form. -/
theorem stepKeepsWellFormed : Obligations.StepKeepsWellFormed := by
  unfold Obligations.StepKeepsWellFormed
  intro s t hw h
  obtain ⟨ws, hb⟩ := step_bus_writes s t h
  rw [State.wf, hb]
  exact Memory.wf_writes s.bus ws hw

/-- A read from 0x8000 on depends on the image alone (R57, R60). -/
theorem Bus.read_eq_of_image_eq (b c : Bus) (a : Addr) (h : 0x8000 ≤ a.toNat) (hi : b.image = c.image) :
    b.read a = c.read a := by
  have hrom (d : Bus) : d.target a = .rom ((a.toNat - 0x8000) % d.prg.size) := by
    rw [Bus.target, decodeAddr, if_neg (by omega), if_neg (by omega), if_neg (by omega), if_neg (by omega)]
  rw [Bus.read, Bus.read, hrom, hrom, Bus.prg, Bus.prg, hi]

/-- Settles O23: bus writes leave the image, and the ROM window reads the image. -/
theorem romNeverChanges : Obligations.RomNeverChanges := by
  unfold Obligations.RomNeverChanges
  intro s t h
  obtain ⟨ws, hb⟩ := step_bus_writes s t h
  have himage : t.bus.image = s.bus.image := by rw [hb, Bus.writes_image]
  exact ⟨himage, fun a ha => Bus.read_eq_of_image_eq _ _ a ha himage⟩

/-- Settles O18: the blank bus is canonical, and the vector of the blank cartridge is the PC of `State.reset`. -/
theorem resetStateIsWellFormedReset : Obligations.ResetStateIsWellFormedReset := by
  unfold Obligations.ResetStateIsWellFormedReset
  refine ⟨Memory.wf_blank, ?_⟩
  rw [State.hostReset, State.afterReadWord_resetVector]
  rfl

end Sys2Proof.Machine
end

section
/-! PROOFS, 10_state. What no step reads: the image beside its program ROM, the result and the trace (R32, R35). -/

namespace Sys2Proof.Machine

/-- The bus with another image around the same program ROM. -/
def Bus.withImage (b : Bus) (img : CartridgeImage) : Bus := { b with image := { img with prgRom := b.prg } }

/-- A write finds its cell by the size of the program ROM alone. -/
theorem Bus.write_withImage (b : Bus) (img : CartridgeImage) (a : Addr) (v : Byte) :
    (b.withImage img).write a v = (b.write a v).withImage img := by
  have htarget : (b.withImage img).target a = b.target a := rfl
  rw [Bus.write, Bus.write, htarget]
  cases b.target a <;> rfl

/-- The state with what no step reads replaced: the image but for its program ROM, the result, and events `old` before
those of the trace. -/
def State.withUnread (s : State) (img : CartridgeImage) (r : Option StepResult) (old : List Diagnostic) : State :=
  { s with bus := s.bus.withImage img, result := r, trace := old ++ s.trace }

/-- An answer with the same replaced in its state, but for the result, which a step writes. -/
def withUnreadAnswer (img : CartridgeImage) (old : List Diagnostic) : Answer → Answer
  | .next t => .next (t.withUnread img t.result old)
  | .fault r => .fault r
  | .refused r => .refused r

section
variable (s : State) (img : CartridgeImage) (r : Option StepResult) (old : List Diagnostic)

/-- Logging stands behind the old events. -/
theorem State.log_withUnread (es : List Diagnostic) :
    (s.withUnread img r old).log es = (s.log es).withUnread img r old := by
  simp only [State.log, State.withUnread, List.append_assoc]

/-- A read logs by the address and the size of the program ROM alone (R60). -/
theorem State.afterRead_withUnread (a : Addr) :
    (s.withUnread img r old).afterRead a = (s.afterRead a).withUnread img r old :=
  State.log_withUnread s img r old _

/-- A write does, too (R61). -/
theorem State.memWrite_withUnread (a : Addr) (v : Byte) :
    (s.withUnread img r old).memWrite a v = (s.memWrite a v).withUnread img r old := by
  have hbus : (s.withUnread img r old).setBus ((s.withUnread img r old).bus.write a v) =
      (s.setBus (s.bus.write a v)).withUnread img r old :=
    congrArg (fun b => (s.withUnread img r old).setBus b) (Bus.write_withImage s.bus img a v)
  rw [State.memWrite, hbus, State.log_withUnread]
  rfl

theorem State.push_withUnread (v : Byte) : (s.withUnread img r old).push v = (s.push v).withUnread img r old := by
  rw [State.push, State.memWrite_withUnread]
  rfl

theorem State.pushWord_withUnread (w : Addr) :
    (s.withUnread img r old).pushWord w = (s.pushWord w).withUnread img r old := by
  rw [State.pushWord, State.push_withUnread, State.push_withUnread, State.pushWord]

/-- The BRK entry pushes registers and reads its vector from the program ROM (R292). -/
theorem State.enterVector_withUnread :
    (s.withUnread img r old).enterVector Config.brkVector = (s.enterVector Config.brkVector).withUnread img r old := by
  simp only [State.enterVector, State.pushWord_withUnread, State.push_withUnread, State.afterReadWord_brkVector]
  rfl

/-- The action of an instruction with no operand reads none of what is replaced. -/
theorem impliedAction_withUnread (mn : Mnemonic) (act : State → State) (h : impliedAction mn = some act) :
    act (s.withUnread img r old) = (act s).withUnread img r old := by
  cases mn <;> cases h
  case pha | php => exact State.push_withUnread s img r old _
  case brk => exact State.enterVector_withUnread s img r old
  case pla | plp => simp only [State.afterPull_eq]; rfl
  case rti => simp only [State.leaveVector, State.afterPullWord, State.afterPull_eq]; rfl
  case rts => simp only [returnFromSubroutine, State.afterPullWord, State.afterPull_eq]; rfl
  all_goals rfl

/-- The action of a load reads none of what is replaced. -/
theorem readAction_withUnread (mn : Mnemonic) (act : Byte → State → State) (h : readAction mn = some act) (v : Byte) :
    act v (s.withUnread img r old) = (act v s).withUnread img r old := by
  cases mn <;> cases h <;> rfl

/-- The end of a step writes the result, whatever it was. -/
theorem finish_withUnread (op : Byte) (crossed : Bool) (extra : Nat) :
    finish op crossed extra (s.withUnread img r old) = withUnreadAnswer img old (finish op crossed extra s) := rfl

/-- The resolver reads registers and memory alone. -/
theorem resolve_withUnread (m : MemOperand) :
    (resolve m (s.withUnread img r old)).ea = (resolve m s).ea ∧
      (resolve m (s.withUnread img r old)).crossed = (resolve m s).crossed := by
  cases m <;> exact ⟨rfl, rfl⟩

/-- No instruction reads the image beside its program ROM, the result or the trace (R32, R35). -/
theorem exec_withUnread (i : Instr) : exec i (s.withUnread img r old) = withUnreadAnswer img old (exec i s) := by
  have hread (a : Addr) : (s.withUnread img r old).bus.read a = s.bus.read a := rfl
  rcases instr_shape i with ⟨act, h⟩ | ⟨q, h⟩ | ⟨f, h⟩ | ⟨act, h⟩ | ⟨f, b, h⟩ | ⟨t, rfl⟩ | ⟨t, rfl⟩ | ⟨t, rfl⟩ | ⟨op, rfl⟩
  · obtain ⟨src, -, hx⟩ := exec_read i act h
    rw [hx, hx]
    cases src with
    | imm v => rw [execRead_imm, execRead_imm, readAction_withUnread _ _ _ _ _ _ h, finish_withUnread]
    | mem m =>
      obtain ⟨hea, hcr⟩ := resolve_withUnread s img r old m
      rw [execRead_mem, execRead_mem, hea, hcr, State.afterRead_withUnread, readAction_withUnread _ _ _ _ _ _ h,
        finish_withUnread, hread]
  · obtain ⟨m, -, hx⟩ := exec_store i q h
    obtain ⟨hea, hcr⟩ := resolve_withUnread s img r old m
    have hreg : (s.withUnread img r old).reg q = s.reg q := by cases q <;> rfl
    rw [hx, hx, execStore_eq, execStore_eq, hea, hcr, hreg, State.memWrite_withUnread, finish_withUnread]
  · obtain ⟨place, -, hx⟩ := exec_modify i f h
    rw [hx, hx]
    cases place with
    | acc => rfl
    | mem m =>
      obtain ⟨hea, hcr⟩ := resolve_withUnread s img r old m
      have hset (t : State) (p : Byte) : (t.withUnread img r old).setP p = (t.setP p).withUnread img r old := rfl
      rw [execModify_mem, execModify_mem, hea, hcr, State.afterRead_withUnread, hset, State.memWrite_withUnread,
        finish_withUnread]
      rfl
  · obtain ⟨-, hx⟩ := exec_implied i act h
    rw [hx, hx, execImplied, execImplied, impliedAction_withUnread _ _ _ _ _ _ h, finish_withUnread]
  · obtain ⟨o, -, hx⟩ := exec_branch i f b h
    have hflag : getFlag f (s.withUnread img r old).p = getFlag f s.p := rfl
    rw [hx, hx, execBranch, execBranch, hflag]
    split <;> rfl
  · rfl
  · simp only [exec, execJmpInd, State.afterPointer, State.afterRead_withUnread]
    rfl
  · simp only [exec, execJsr, State.pushWord_withUnread]
    rfl
  · simp only [exec, execIllegal, finishIllegal, State.log_withUnread]
    rfl

/-- The fetches read the bus alone and log behind the old events. -/
theorem State.afterInstr_withUnread : (s.withUnread img r old).afterInstr = s.afterInstr.withUnread img r old := by
  rw [State.afterInstr_eq, State.afterInstr_eq]
  simp only [State.withUnread, List.append_assoc]
  rfl

/-- No step reads the image beside its program ROM, the result or the trace (R32, R35). -/
theorem step_withUnread : step (s.withUnread img r old) = withUnreadAnswer img old (step s) := by
  have hfetched : (s.withUnread img r old).fetchedInstr = s.fetchedInstr := rfl
  cases hrun : s.run with
  | ready =>
    have hrun' : (s.withUnread img r old).run = .ready := hrun
    rw [step_of_ready _ hrun', step_of_ready _ hrun, hfetched, State.afterInstr_withUnread, exec_withUnread]
  | halted =>
    have hrun' : (s.withUnread img r old).run = .halted := hrun
    rw [step, step, hrun, hrun']
    rfl

end

/-- From Ready a step answers a next state, the same one but for what no step reads. -/
theorem step_withUnread_next (s : State) (h : s.run = .ready) :
    ∃ t : State, step s = .next t ∧ ∀ img r old, step (s.withUnread img r old) = .next (t.withUnread img t.result old) := by
  obtain ⟨t, ht, -⟩ := exec_effect s.fetchedInstr s.afterInstr
  rw [← step_of_ready s h] at ht
  exact ⟨t, ht, fun img r old => by rw [step_withUnread, ht, withUnreadAnswer]⟩

/-- Any result and trace are those that `withUnread` puts into the state with an empty trace. -/
theorem State.withUnread_empty_trace (s : State) (r : Option StepResult) (old : List Diagnostic) :
    State.withUnread { s with trace := [] } s.bus.image r old = { s with result := r, trace := old } := by
  simp only [State.withUnread, List.append_nil]
  rfl

/-- Settles O24: the step of the state with an empty trace gives the events, which stand behind any old trace. -/
theorem outputsAreNeverRead : Obligations.OutputsAreNeverRead := by
  unfold Obligations.OutputsAreNeverRead
  intro s r old hs
  obtain ⟨t, -, ht⟩ := step_withUnread_next { s with trace := [] } hs
  refine ⟨t.withUnread s.bus.image t.result s.trace, t.trace, ?_, rfl, ?_⟩
  · rw [← ht _ s.result, State.withUnread_empty_trace]
  · rw [← State.withUnread_empty_trace, ht]
    rfl

/-- Settles O25: an image with the same program ROM is one that `withUnread` puts in, and a step keeps that ROM. -/
theorem imageFieldsAreNeverRead : Obligations.ImageFieldsAreNeverRead := by
  unfold Obligations.ImageFieldsAreNeverRead
  intro s img hs hprg
  obtain ⟨t, hst, ht⟩ := step_withUnread_next s hs
  have hkept : t.bus.image = s.bus.image := (romNeverChanges s t hst).1
  have himage (b : Bus) (h : b.image = s.bus.image) : b.withImage img = { b with image := img } := by
    rw [Bus.withImage, Bus.prg, h, ← hprg]
  refine ⟨t, hst, ?_⟩
  have hstep := ht img s.result []
  simp only [State.withUnread, himage _ rfl, himage _ hkept, List.nil_append] at hstep
  exact hstep

end Sys2Proof.Machine
end

section
/-! PROOFS, 10_state. The opcode table against the instructions, and its shape (R29, R108, R110, R149). -/

namespace Sys2Proof

open Machine

/-- The descriptor of an instruction's opcode has its mnemonic and the mode of its operand (R29, R108). -/
theorem descriptor_opcode (i : Instr) (h : i.wellFormed) :
    (descriptor (opcode i)).mnemonic = i.mnemonic ∧ (descriptor (opcode i)).mode = i.operand.mode := by
  cases i with
  | illegal op =>
    have hrow := (illegal_row op (List.contains_iff_mem.mp h)).1
    rw [opcode, hrow]
    exact ⟨rfl, rfl⟩
  | _ => exact ⟨rfl, rfl⟩

/-- An instruction with the mnemonic ILLEGAL is an illegal byte. -/
theorem eq_illegal_of_mnemonic (i : Instr) (h : i.mnemonic = .illegal) : ∃ op, i = .illegal op := by
  cases i with
  | illegal op => exact ⟨op, rfl⟩
  | _ => cases h

/-- The illegal descriptors are those of the bytes of R110. -/
theorem descriptor_illegal_iff (op : Byte) : (descriptor op).mnemonic = .illegal ↔ op ∈ illegalBytes := by
  constructor
  · intro h
    obtain ⟨hop, hwf, -⟩ := instrOf_spec op 0 0
    have hmn := (descriptor_opcode _ hwf).1
    rw [hop, h] at hmn
    obtain ⟨op', hi⟩ := eq_illegal_of_mnemonic _ hmn.symm
    rw [hi] at hop hwf
    obtain rfl : op' = op := hop
    exact List.contains_iff_mem.mp hwf
  · intro h
    rw [(illegal_row op h).1]
    rfl

/-- Settles O4: instruction by instruction; the instruction the table makes from a byte says whether it is illegal. -/
theorem tableAgreesWithInstructions : Obligations.TableAgreesWithInstructions := by
  unfold Obligations.TableAgreesWithInstructions
  exact ⟨descriptor_opcode, descriptor_illegal_iff⟩

/-- Settles O5: the sizes row by row, the page-cross flag byte by byte. -/
theorem tableShape : Obligations.TableShape := by
  unfold Obligations.TableShape
  refine ⟨?size, ?official, ?crossing⟩
  case size =>
    simp only [opcodeTable, List.length_append]
    rfl
  case official =>
    simp only [opcodeTable, List.filter_append, List.length_append]
    rfl
  case crossing => decide +kernel

end Sys2Proof
end

section
/-! PROOFS, 10_state. Which instructions write which register (R21 to R23). -/

namespace Sys2Proof.Machine

/-- The mnemonics that write A, beside the accumulator forms (R21). -/
def aWriters : List Mnemonic := [.lda, .pla, .txa, .tya, .adc, .sbc, .and, .ora, .eor]

/-- The mnemonics that write X (R21). -/
def xWriters : List Mnemonic := [.ldx, .tax, .tsx, .inx, .dex]

/-- The mnemonics that write Y (R21). -/
def yWriters : List Mnemonic := [.ldy, .tay, .iny, .dey]

/-- The mnemonics that write SP (R22). -/
def spWriters : List Mnemonic := [.txs, .pha, .php, .pla, .plp, .jsr, .rts, .brk, .rti]

/-- The mnemonics that write PC, beside the fetch (R23). -/
def pcWriters : List Mnemonic := [.bpl, .bmi, .bvc, .bvs, .bcc, .bcs, .bne, .beq, .jmp, .jsr, .rts, .brk, .rti]

/-- From `s` to `t` a register changes only where an instruction of mnemonic `mn` and operand `o` may write it. -/
structure RegistersWithin (mn : Mnemonic) (o : Operand) (s t : State) : Prop where
  a : t.a ≠ s.a → mn ∈ aWriters ∨ o = .accumulator
  x : t.x ≠ s.x → mn ∈ xWriters
  y : t.y ≠ s.y → mn ∈ yWriters
  sp : t.sp ≠ s.sp → mn ∈ spWriters
  pc : t.pc ≠ s.pc → mn ∈ pcWriters

/-- No register changes. -/
theorem RegistersWithin.of_eq {mn : Mnemonic} {o : Operand} {s t : State} (ha : t.a = s.a) (hx : t.x = s.x)
    (hy : t.y = s.y) (hsp : t.sp = s.sp) (hpc : t.pc = s.pc) : RegistersWithin mn o s t :=
  ⟨absurd ha, absurd hx, absurd hy, absurd hsp, absurd hpc⟩

/-- The loads: one register or none. -/
theorem readAction_registers (mn : Mnemonic) (act : Byte → State → State) (h : readAction mn = some act) (v : Byte)
    (o : Operand) (s : State) : RegistersWithin mn o s (act v s) := by
  cases mn <;> cases h
  case lda | adc | sbc | and | ora | eor =>
    exact ⟨fun _ => .inl (by decide), absurd rfl, absurd rfl, absurd rfl, absurd rfl⟩
  case ldx => exact ⟨absurd rfl, fun _ => by decide, absurd rfl, absurd rfl, absurd rfl⟩
  case ldy => exact ⟨absurd rfl, absurd rfl, fun _ => by decide, absurd rfl, absurd rfl⟩
  case bit | cmp | cpx | cpy => exact .of_eq rfl rfl rfl rfl rfl

/-- The instructions with no operand: each writes one register or none, but for PLA, RTS, BRK and RTI. -/
theorem impliedAction_registers (mn : Mnemonic) (act : State → State) (h : impliedAction mn = some act) (o : Operand)
    (s : State) : RegistersWithin mn o s (act s) := by
  cases mn <;> cases h
  case txa | tya => exact ⟨fun _ => .inl (by decide), absurd rfl, absurd rfl, absurd rfl, absurd rfl⟩
  case tax | tsx | inx | dex => exact ⟨absurd rfl, fun _ => by decide, absurd rfl, absurd rfl, absurd rfl⟩
  case tay | iny | dey => exact ⟨absurd rfl, absurd rfl, fun _ => by decide, absurd rfl, absurd rfl⟩
  case txs => exact ⟨absurd rfl, absurd rfl, absurd rfl, fun _ => by decide, absurd rfl⟩
  case pha | php =>
    simp only [State.push_eq]
    exact ⟨absurd rfl, absurd rfl, absurd rfl, fun _ => by decide, absurd rfl⟩
  case plp =>
    simp only [State.afterPull_eq]
    exact ⟨absurd rfl, absurd rfl, absurd rfl, fun _ => by decide, absurd rfl⟩
  case pla =>
    simp only [State.afterPull_eq]
    exact ⟨fun _ => .inl (by decide), absurd rfl, absurd rfl, fun _ => by decide, absurd rfl⟩
  case rts | brk | rti =>
    refine ⟨absurd ?_, absurd ?_, absurd ?_, fun _ => by decide, fun _ => by decide⟩ <;>
      simp [returnFromSubroutine, State.enterVector, State.leaveVector, State.pushWord, State.afterPullWord, State.push_eq]
  case clc | cld | cli | clv | sec | sed | sei | nop => exact .of_eq rfl rfl rfl rfl rfl

/-- A mnemonic that tests a flag is a branch, which writes PC. -/
theorem branchFlag_writes_pc (mn : Mnemonic) (fb : Flag × Bool) (h : branchFlag mn = some fb) : mn ∈ pcWriters := by
  cases mn <;> cases h <;> decide

/-- Every instruction writes only the registers it is listed for (R21 to R23). -/
theorem exec_registers (i : Instr) (s t : State) (ht : exec i s = .next t) :
    RegistersWithin i.mnemonic i.operand s t := by
  rcases instr_shape i with ⟨act, h⟩ | ⟨r, h⟩ | ⟨f, h⟩ | ⟨act, h⟩ | ⟨f, b, h⟩ | ⟨a, rfl⟩ | ⟨a, rfl⟩ | ⟨a, rfl⟩ | ⟨op, rfl⟩
  · obtain ⟨v, -, hx⟩ := exec_read_loaded i s act h (fun v => (readAction_effect _ _ h v).1)
    cases hx.symm.trans ht
    obtain ⟨ha, hx, hy, hsp, hpc⟩ := readAction_registers _ _ h v i.operand s
    exact ⟨ha, hx, hy, hsp, hpc⟩
  · obtain ⟨ea, -, hx⟩ := exec_store_done i s r h
    cases hx.symm.trans ht
    exact .of_eq rfl rfl rfl rfl rfl
  · obtain ⟨place, ho, hx⟩ := exec_modify i f h
    rw [hx] at ht
    cases place with
    | acc =>
      cases (execModify_acc _ _ _).symm.trans ht
      exact ⟨fun _ => .inr ho, absurd rfl, absurd rfl, absurd rfl, absurd rfl⟩
    | mem m =>
      cases (execModify_mem _ _ _ _).symm.trans ht
      exact .of_eq rfl rfl rfl rfl rfl
  · cases (exec_implied_done i s act h).symm.trans ht
    obtain ⟨ha, hx, hy, hsp, hpc⟩ := impliedAction_registers _ _ h i.operand s
    exact ⟨ha, hx, hy, hsp, hpc⟩
  · obtain ⟨o, -, hx⟩ := exec_branch i f b h
    rw [hx, execBranch] at ht
    have hpc := branchFlag_writes_pc _ _ h
    split at ht <;> cases ht <;> exact ⟨absurd rfl, absurd rfl, absurd rfl, absurd rfl, fun _ => hpc⟩
  · cases ht
    exact ⟨absurd rfl, absurd rfl, absurd rfl, absurd rfl, fun _ => (by decide : Mnemonic.jmp ∈ pcWriters)⟩
  · cases ht
    exact ⟨absurd rfl, absurd rfl, absurd rfl, absurd rfl, fun _ => (by decide : Mnemonic.jmp ∈ pcWriters)⟩
  · cases ht
    simp only [State.pushWord, State.push_eq]
    exact ⟨absurd rfl, absurd rfl, absurd rfl, fun _ => (by decide : Mnemonic.jsr ∈ spWriters),
      fun _ => (by decide : Mnemonic.jsr ∈ pcWriters)⟩
  · cases ht
    exact .of_eq rfl rfl rfl rfl rfl

/-- Settles O28: shape by shape, and mnemonic by mnemonic where the shape has an action of its own. -/
theorem registerWriters : Obligations.RegisterWriters := by
  unfold Obligations.RegisterWriters
  intro i s t ht
  obtain ⟨ha, hx, hy, hsp, hpc⟩ := exec_registers i s t ht
  exact ⟨ha, hx, hy, hsp, hpc⟩

end Sys2Proof.Machine
end

section
/-! PROOFS, 10_state. Which instructions write which flag (R25, R26). -/

namespace Sys2Proof.Machine

/-- The mnemonics that write each flag of P (R25, R26): the two that load P from the stack write them all. -/
def writersOf : Flag → List Mnemonic
  | .c => [.plp, .rti, .sec, .clc, .adc, .sbc, .cmp, .cpx, .cpy, .asl, .lsr, .rol, .ror]
  | .z | .n => [.plp, .rti, .lda, .ldx, .ldy, .tax, .tay, .tsx, .txa, .tya, .pla, .adc, .sbc, .and, .ora, .eor, .inc,
      .dec, .inx, .iny, .dex, .dey, .asl, .lsr, .rol, .ror, .bit, .cmp, .cpx, .cpy]
  | .i => [.plp, .rti, .sei, .cli, .brk]
  | .d => [.plp, .rti, .sed, .cld]
  | .v => [.plp, .rti, .adc, .sbc, .bit, .clv]
  | .b | .r => [.plp, .rti]

/-- From status `p` to `q` a flag changes only where `mn` is one of its writers. -/
def FlagsWithin (mn : Mnemonic) (p q : Byte) : Prop := ∀ f, mn ∉ writersOf f → getFlag f q = getFlag f p

theorem FlagsWithin.refl (mn : Mnemonic) (p : Byte) : FlagsWithin mn p p := fun _ _ => rfl

/-- A writer of `g` may write `g`. -/
theorem FlagsWithin.setFlag {mn : Mnemonic} {p q : Byte} (h : FlagsWithin mn p q) (g : Flag) (b : Bool)
    (hg : mn ∈ writersOf g) : FlagsWithin mn p (setFlag g b q) := fun f hf => by
  have hne : f ≠ g := fun e => hf (e ▸ hg)
  rw [getFlag_setFlag, if_neg hne, h f hf]

/-- A writer of Z and N may do `SetZN(v)`. -/
theorem FlagsWithin.setZN {mn : Mnemonic} {p q : Byte} (h : FlagsWithin mn p q) (v : Byte) (hz : mn ∈ writersOf .z)
    (hn : mn ∈ writersOf .n) : FlagsWithin mn p (setZN v q) :=
  (((h.setFlag .z _ hz).setFlag .n _ hn).setFlag .z _ hz).setFlag .n _ hn

/-- The flags a load writes. -/
theorem readAction_flags (mn : Mnemonic) (act : Byte → State → State) (h : readAction mn = some act) (v : Byte)
    (s : State) : FlagsWithin mn s.p (act v s).p := by
  have hp (n : Mnemonic) : FlagsWithin n s.p s.p := .refl n s.p
  cases mn <;> cases h
  case lda | ldx | ldy | and | ora | eor => exact (hp _).setZN _ (by decide) (by decide)
  case adc | sbc =>
    exact (((hp _).setFlag .c _ (by decide)).setFlag .v _ (by decide)).setZN _ (by decide) (by decide)
  case bit => exact (((hp _).setFlag .z _ (by decide)).setFlag .n _ (by decide)).setFlag .v _ (by decide)
  case cmp | cpx | cpy => exact ((hp _).setFlag .c _ (by decide)).setZN _ (by decide) (by decide)

/-- The flags a read-modify-write writes. -/
theorem modifyFunction_flags (mn : Mnemonic) (f : Byte → Byte → Byte × Byte) (h : modifyFunction mn = some f) (m p : Byte) :
    FlagsWithin mn p (f m p).2 := by
  have hp (n : Mnemonic) : FlagsWithin n p p := .refl n p
  cases mn <;> cases h
  case inc | dec => exact (hp _).setZN _ (by decide) (by decide)
  case asl | lsr | rol | ror => exact ((hp _).setFlag .c _ (by decide)).setZN _ (by decide) (by decide)

/-- The flags an instruction with no operand writes. -/
theorem impliedAction_flags (mn : Mnemonic) (act : State → State) (h : impliedAction mn = some act) (s : State) :
    FlagsWithin mn s.p (act s).p := by
  have hp (n : Mnemonic) : FlagsWithin n s.p s.p := .refl n s.p
  cases mn <;> cases h
  case tax | tay | tsx | txa | tya | pla | inx | iny | dex | dey => exact (hp _).setZN _ (by decide) (by decide)
  case clc | sec | cli | sei | cld | sed | clv => exact (hp _).setFlag _ _ (by decide)
  case brk =>
    simp only [State.enterVector, State.pushWord, State.push_eq, State.afterReadWord_brkVector]
    exact (hp _).setFlag .i true (by decide)
  case rts =>
    simp only [returnFromSubroutine, State.afterPullWord, State.afterPull_eq]
    exact hp _
  case plp | rti => exact fun f hf => absurd (by cases f <;> decide) hf
  case txs | pha | php | nop => exact hp _

/-- Every instruction writes only the flags its mnemonic is listed for (R25). -/
theorem exec_flags (i : Instr) (s t : State) (ht : exec i s = .next t) :
    FlagsWithin i.mnemonic s.p t.p := by
  have hp (n : Mnemonic) : FlagsWithin n s.p s.p := .refl n s.p
  rcases instr_shape i with ⟨act, h⟩ | ⟨r, h⟩ | ⟨f, h⟩ | ⟨act, h⟩ | ⟨f, b, h⟩ | ⟨a, rfl⟩ | ⟨a, rfl⟩ | ⟨a, rfl⟩ | ⟨op, rfl⟩
  · obtain ⟨v, -, hx⟩ := exec_read_loaded i s act h (fun v => (readAction_effect _ _ h v).1)
    cases hx.symm.trans ht
    exact readAction_flags _ _ h v s
  · obtain ⟨ea, -, hx⟩ := exec_store_done i s r h
    cases hx.symm.trans ht
    exact hp _
  · obtain ⟨place, -, hx⟩ := exec_modify i f h
    rw [hx] at ht
    cases place with
    | acc =>
      cases (execModify_acc _ _ _).symm.trans ht
      exact modifyFunction_flags _ _ h _ _
    | mem m =>
      cases (execModify_mem _ _ _ _).symm.trans ht
      exact modifyFunction_flags _ _ h _ _
  · cases (exec_implied_done i s act h).symm.trans ht
    exact impliedAction_flags _ _ h s
  · obtain ⟨o, -, hx⟩ := exec_branch i f b h
    rw [hx, execBranch] at ht
    split at ht <;> cases ht <;> exact hp _
  · cases ht
    exact hp _
  · cases ht
    exact hp _
  · cases ht
    simp only [State.pushWord, State.push_eq]
    exact hp _
  · cases ht
    exact hp _

/-- Settles O29: a flag that changes has the instruction among its writers. -/
theorem flagWriters : Obligations.FlagWriters := by
  unfold Obligations.FlagWriters
  intro i s t f ht hne
  have hwriter : i.mnemonic ∈ writersOf f := by
    by_contra hf
    exact hne (exec_flags i s t ht f hf)
  cases f <;> simpa [writersOf, or_assoc] using hwriter

end Sys2Proof.Machine
end

section
/-! PROOFS, 20_memory. From Ready every step answers a Ready state (R59, R332, R342). -/

namespace Sys2Proof.Machine

/-- Fetching leaves the engine state. -/
@[simp] theorem State.afterInstr_run (s : State) : s.afterInstr.run = s.run := by rw [State.afterInstr_eq]

/-- From Ready a step answers a next state, and that state is Ready: no instruction stops the machine (R59, R332). -/
theorem step_ready (s : State) (h : s.run = .ready) : ∃ t, step s = .next t ∧ t.run = .ready := by
  obtain ⟨t, ht, hrun, -⟩ := exec_effect s.fetchedInstr s.afterInstr
  exact ⟨t, by rw [step_of_ready s h, ht], by rw [hrun, State.afterInstr_run, h]⟩

/-- After a first step that answers a next state, a run goes on from that state. -/
theorem run_succ_of_step (M : Host.Core) (k : Nat) (s t : M.State) (h : M.step s = .next t) :
    M.run (k + 1) s = M.run k t := by
  rw [Host.Core.run, h]

/-- A first step and a run from the state it answers are a run of one step more. -/
theorem RunsFor.succ {k : Nat} {s t : State} (h : step s = .next t) : RunsFor k t → RunsFor (k + 1) s
  | ⟨u, hu, hready⟩ => ⟨u, (run_succ_of_step Sys2Proof.core k s t h).trans hu, hready⟩

/-- Settles O19, by induction on the number of steps. -/
theorem readyRunsForever : Obligations.ReadyRunsForever := by
  unfold Obligations.ReadyRunsForever
  intro k
  induction k with
  | zero => exact fun s hs => ⟨s, rfl, hs⟩
  | succ k ih =>
    intro s hs
    obtain ⟨t, ht, htr⟩ := step_ready s hs
    exact .succ ht (ih t htr)

end Sys2Proof.Machine
end

section
/-! PROOFS, 20_memory. The windows of the address space, and what a read and a write do in each (R52 to R63). -/

namespace Sys2Proof.Machine

section
variable (b : Bus) (a : Addr)

/-- The RAM window: four copies of 2 KiB (R53). -/
theorem Bus.target_ram (h : a.toNat < 0x2000) : b.target a = .ram (a.toNat % 0x0800) := by
  have hmask : (a &&& 0x07FF).toNat = a.toNat % 0x0800 := by
    rw [BitVec.toNat_and]; exact Nat.and_two_pow_sub_one_eq_mod _ 11
  rw [Bus.target, decodeAddr, if_pos (by omega), hmask]

/-- The video-stub window: eight bytes, repeated (R54). -/
theorem Bus.target_ppu (hlo : 0x2000 ≤ a.toNat) (hhi : a.toNat < 0x4000) : b.target a = .ppu (a.toNat % 8) := by
  have hmask : (a &&& 0x0007).toNat = a.toNat % 8 := by
    rw [BitVec.toNat_and]; exact Nat.and_two_pow_sub_one_eq_mod _ 3
  rw [Bus.target, decodeAddr, if_neg (by omega), if_pos (by omega), hmask]

/-- The IO-stub window (R55). -/
theorem Bus.target_io (hlo : 0x4000 ≤ a.toNat) (hhi : a.toNat < 0x4018) : b.target a = .io (a.toNat - 0x4000) := by
  rw [Bus.target, decodeAddr, if_neg (by omega), if_neg (by omega), if_pos (by omega)]

/-- The Unmapped window (R56, decision D7). -/
theorem Bus.target_unmapped (hlo : 0x4018 ≤ a.toNat) (hhi : a.toNat < 0x8000) : b.target a = .unmapped := by
  rw [Bus.target, decodeAddr, if_neg (by omega), if_neg (by omega), if_neg (by omega), if_pos (by omega)]

/-- The program-ROM window (R57). -/
theorem Bus.target_rom (h : 0x8000 ≤ a.toNat) : b.target a = .rom ((a.toNat - 0x8000) % b.prg.size) := by
  rw [Bus.target, decodeAddr, if_neg (by omega), if_neg (by omega), if_neg (by omega), if_neg (by omega)]

/-- A read of the program-ROM window (R57, R60). -/
theorem Bus.read_rom (h : 0x8000 ≤ a.toNat) : b.read a = b.prg.read ((a.toNat - 0x8000) % b.prg.size) := by
  rw [Bus.read, Bus.target_rom b a h]

/-- A write to the program-ROM window changes no store (R62). -/
theorem Bus.write_rom (v : Byte) (h : 0x8000 ≤ a.toNat) : b.write a v = b := by
  rw [Bus.write, Bus.target_rom b a h]

/-- A write to the program-ROM window is logged (R62). -/
theorem Bus.writeDiags_rom (h : 0x8000 ≤ a.toNat) : b.writeDiags a = [.romWrite a] := by
  rw [Bus.writeDiags, Bus.target_rom b a h]

end

/-- Settles O7: one window after the other. -/
theorem decodeWindows : Obligations.DecodeWindows := by
  unfold Obligations.DecodeWindows
  exact fun b a =>
    ⟨b.target_ram a, b.target_ppu a, b.target_io a, b.target_unmapped a, b.target_rom a⟩

/-- Settles O8: two RAM addresses equal mod 0x0800 select one byte, which reads as it was written. -/
theorem ramMirrorRoundTrip : Obligations.RamMirrorRoundTrip := by
  unfold Obligations.RamMirrorRoundTrip
  intro s a c v hw ha
  have htarget := s.bus.target_ram a ha
  refine ⟨htarget, fun hc hmod => ?_⟩
  have hsame : s.bus.target c = s.bus.target a := by rw [htarget, s.bus.target_ram c hc, hmod]
  exact Bus.read_write_same s.bus a c v hw hsame (by simp [htarget]) (by simp [htarget])

/-- Settles O9: two addresses of one stub byte decode alike, and a write below 0x4018 is not logged. -/
theorem stubsAreShadowStorage : Obligations.StubsAreShadowStorage := by
  unfold Obligations.StubsAreShadowStorage
  intro s a c v hw h
  have htrace (hlt : a.toNat < 0x4018) : (s.memWrite a v).trace = s.trace := by
    rw [State.memWrite, State.log_trace, Bus.writeDiags_nil _ _ hlt, State.setBus_trace, List.append_nil]
  rcases h with ⟨halo, hahi, hclo, hchi, hmod⟩ | ⟨halo, hahi, rfl⟩
  case inl =>
    have htarget := s.bus.target_ppu a halo hahi
    have hsame : s.bus.target c = s.bus.target a := by rw [htarget, s.bus.target_ppu c hclo hchi, hmod]
    exact ⟨Bus.read_write_same s.bus a c v hw hsame (by simp [htarget]) (by simp [htarget]), htrace (by omega)⟩
  case inr =>
    have htarget := s.bus.target_io c halo hahi
    exact ⟨Bus.read_write_same s.bus c c v hw rfl (by simp [htarget]) (by simp [htarget]), htrace hahi⟩

/-- Settles O10: the two offsets 0x4000 apart are equal mod 16,384, and every offset is below 32,768. -/
theorem romMirroring : Obligations.RomMirroring := by
  unfold Obligations.RomMirroring
  intro b a ha
  have hlt := a.isLt
  refine ⟨b.read_rom a ha, fun hsize hc => ?_, fun hsize => ?_⟩
  · have hsub : (a - 0x4000).toNat = a.toNat - 0x4000 := 
      BitVec.toNat_sub_of_le (BitVec.le_def.mpr (Nat.le_trans (by decide) ha))
    have hmod : (a.toNat - 0x8000) % 16384 = (a.toNat - 0x4000 - 0x8000) % 16384 := by omega
    rw [b.read_rom a ha, b.read_rom (a - 0x4000) (by omega), hsub, hsize, hmod]
  · rw [b.read_rom a ha, hsize, Nat.mod_eq_of_lt (by omega)]

/-- Settles O12: the access decodes to Unmapped, which holds nothing and logs each access. -/
theorem unmappedAccess : Obligations.UnmappedAccess := by
  unfold Obligations.UnmappedAccess
  intro s a v hlo hhi
  have htarget := s.bus.target_unmapped a hlo hhi
  have hread : s.bus.read a = 0xFF := by rw [Bus.read, htarget]; rfl
  have hreadDiags : s.bus.readDiags a = [.openBusRead a] := by rw [Bus.readDiags, htarget]
  have hwrite : s.bus.write a v = s.bus := by rw [Bus.write, htarget]
  have hwriteDiags : s.bus.writeDiags a = [.unmappedWrite a] := by rw [Bus.writeDiags, htarget]
  refine ⟨hread, ?_, ?_⟩
  · rw [State.afterRead_eq, hreadDiags]
  · rw [State.memWrite, hwrite, hwriteDiags, State.setBus_self, State.log]

end Sys2Proof.Machine
end

section
/-! PROOFS, 20_memory. What an instruction leaves of memory: the frame of its stores, and stores to ROM (R62, R64). -/

namespace Sys2Proof.Machine

/-- Settles O30: the bus after an instruction is the old one written at `storedTo` alone. -/
theorem memoryFrame : Obligations.MemoryFrame := by
  unfold Obligations.MemoryFrame
  intro i s t c ht hc
  obtain ⟨u, hu, -, ws, hbus, haddrs⟩ := exec_effect i s
  obtain rfl : u = t := Host.Outcome.next.inj (hu.symm.trans ht)
  rw [hbus]
  exact Bus.read_writes_other s.bus ws c (haddrs ▸ hc)

/-- A memory write to the program-ROM window changes nothing but the trace (R62). -/
theorem State.memWrite_rom (s : State) (a : Addr) (v : Byte) (h : 0x8000 ≤ a.toNat) :
    s.memWrite a v = { s with trace := s.trace ++ [.romWrite a] } := by
  rw [State.memWrite, Bus.write_rom _ _ _ h, Bus.writeDiags_rom _ _ h, State.setBus_self, State.log]

/-- An instruction with one stored-to address outside the stack page is a store or a read-modify-write, and the address
is the effective one (R134, R155). -/
theorem storedTo_singleton (i : Instr) (s : State) (a : Addr) (h : storedTo i s = [a]) (ha : 0x0200 ≤ a.toNat) :
    effectiveAddr i.operand s = some a ∧
      ((∃ r, storedReg i.mnemonic = some r) ∨ ∃ f, modifyFunction i.mnemonic = some f) := by
  have hstack (sp : Byte) (e : [stackAddr sp] = [a]) : False := by
    obtain rfl : stackAddr sp = a := List.singleton_inj.mp e
    have := sp.isLt
    rw [stackAddr_toNat] at ha
    omega
  unfold storedTo at h
  cases hm : i.mnemonic <;> rw [hm] at h
  case sta | stx | sty => exact ⟨Option.toList_eq_singleton_iff.mp h, .inl ⟨_, rfl⟩⟩
  case inc | dec | asl | lsr | rol | ror => exact ⟨Option.toList_eq_singleton_iff.mp h, .inr ⟨_, rfl⟩⟩
  case pha | php => exact (hstack _ h).elim
  all_goals cases h

/-- A store or a read-modify-write of memory logs what its write logs (R61, R155). -/
theorem exec_logs_write (i : Instr) (s t : State) (a : Addr) (ht : exec i s = .next t)
    (ha : effectiveAddr i.operand s = some a)
    (h : (∃ r, storedReg i.mnemonic = some r) ∨ ∃ f, modifyFunction i.mnemonic = some f) :
    ∃ es, t.trace = s.trace ++ es ++ s.bus.writeDiags a := by
  rcases h with ⟨r, h⟩ | ⟨f, h⟩
  case inl =>
    obtain ⟨ea, hea, hx⟩ := exec_store_done i s r h
    obtain rfl : ea = a := Option.some.inj (hea.symm.trans ha)
    cases hx.symm.trans ht
    exact ⟨[], by rw [List.append_nil]⟩
  case inr =>
    obtain ⟨place, ho, hx⟩ := exec_modify i f h
    rw [ho] at ha
    cases place with
    | acc => cases ha
    | mem m =>
      cases ha
      cases (execModify_mem _ _ _ _).symm.trans ((hx s).symm.trans ht)
      exact ⟨s.bus.readDiags (resolve m s).ea, rfl⟩

/-- Settles O11: the one write of the instruction goes to ROM, which leaves the bus and is logged. -/
theorem romWriteIgnored : Obligations.RomWriteIgnored := by
  unfold Obligations.RomWriteIgnored
  refine ⟨State.memWrite_rom, fun i s a hs ha => ?_⟩
  obtain ⟨t, ht, -, ws, hbus, haddrs⟩ := exec_effect i s
  obtain ⟨hea, hshape⟩ := storedTo_singleton i s a hs (by omega)
  obtain ⟨es, htrace⟩ := exec_logs_write i s t a ht hea hshape
  refine ⟨t, ht, ?_, ?_⟩
  · obtain ⟨⟨_, v⟩, rfl, rfl⟩ := List.map_eq_singleton_iff.mp (haddrs.trans hs)
    rw [hbus, Bus.writes_cons, Bus.writes_nil, Bus.write_rom _ _ _ ha]
  · rw [htrace, Bus.writeDiags_rom _ _ ha]
    exact List.mem_append_right _ (List.mem_singleton_self _)

end Sys2Proof.Machine
end

section
/-! PROOFS, 20_memory. The cartridge parser and the bus constructor (R74, R80 to R94). -/

namespace Sys2Proof.Machine

/-- A byte sequence made of a list reads as the list. -/
theorem ByteSeq.read_ofList (bs : List Byte) (k : Nat) (h : k < bs.length) :
    (ByteSeq.ofList bs).read k = bs.getD k 0 := by
  have hread := Store.read_ofList 0 k bs h
  rw [Nat.zero_add] at hread
  rw [ByteSeq.read, ByteSeq.ofList, hread, List.getD_eq_getElem _ _ h]

/-- A byte sequence made of a list is canonical. -/
theorem ByteSeq.wf_ofList (bs : List Byte) : (ByteSeq.ofList bs).wf := by
  have h := Store.wfFrom_ofList 0 bs
  rw [Nat.zero_add] at h
  exact h

/-- The bytes from index `start` on, `len` of them (R88). -/
def bytesAt (bytes : List Byte) (start len : Nat) : List Byte := (bytes.drop start).take len

/-- Bytes taken inside the buffer are as many as asked for. -/
theorem length_bytesAt (bytes : List Byte) (start len : Nat) (h : start + len ≤ bytes.length) :
    (bytesAt bytes start len).length = len := by
  rw [bytesAt, List.length_take, List.length_drop]
  omega

/-- Byte `k` of the bytes from `start` on is byte `start + k` of the buffer. -/
theorem getD_bytesAt (bytes : List Byte) (start len k : Nat) (h : k < len) :
    (bytesAt bytes start len).getD k 0 = bytes.getD (start + k) 0 := by
  rw [bytesAt, List.getD_eq_getElem?_getD, List.getElem?_take_of_lt h, List.getElem?_drop, List.getD_eq_getElem?_getD]

/-- A request inside the buffer gives its bytes (R88). -/
theorem slice_eq_bytesAt (bytes : List Byte) (start len : Nat) (h : start + len ≤ bytes.length) :
    slice bytes start len = .ok (bytesAt bytes start len) := if_pos h

/-- The image a container of the right size holds (R83 to R91). -/
def containerImage (bytes : List Byte) : CartridgeImage :=
  let base := Config.headerSize + trainerOf bytes
  { prgRom := .ofList (bytesAt bytes base (prgSizeOf bytes))
    chrRom := .ofList (bytesAt bytes (base + prgSizeOf bytes) (chrSizeOf bytes))
    trainer := trainerOf bytes
    mapperId := mapperIdOf (bytes.getD 6 0) (bytes.getD 7 0)
    mirroring := mirroringOf (bytes.getD 6 0) }

/-- All that `parse` can answer: three errors in order, or the image; with the exact size both slices lie inside the
input (R91, decision D21). -/
theorem parse_eq (bytes : List Byte) : parse bytes =
    if bytes.length < Config.headerSize then .error (.formatInvalid .tooShort)
    else if bytes.take 4 ≠ magic then .error (.formatInvalid .badMagic)
    else if bytes.length ≠ expectedSize bytes then .error (.formatInvalid .sizeMismatch)
    else .ok (containerImage bytes) := by
  unfold parse validate
  by_cases hshort : bytes.length < Config.headerSize
  case pos => rw [if_pos hshort, if_pos hshort]
  by_cases hmagic : bytes.take 4 ≠ magic
  case pos => rw [if_neg hshort, if_neg hshort, if_pos hmagic, if_pos hmagic]
  by_cases hsize : bytes.length ≠ expectedSize bytes
  case pos => simp only [if_neg hshort, if_neg hmagic, if_pos hsize]
  have hlength : bytes.length = Config.headerSize + trainerOf bytes + prgSizeOf bytes + chrSizeOf bytes :=
    not_not.mp hsize
  have hprg := slice_eq_bytesAt bytes (Config.headerSize + trainerOf bytes) (prgSizeOf bytes) (by omega)
  have hchr := slice_eq_bytesAt bytes
    (Config.headerSize + trainerOf bytes + prgSizeOf bytes) (chrSizeOf bytes) (by omega)
  simp only [if_neg hshort, if_neg hmagic, if_neg hsize, hprg, hchr]
  rfl

/-- Settles O57: the branches of `parse` in order, none of which is `RangeInvalid`. -/
theorem parseRejects : Obligations.ParseRejects := by
  unfold Obligations.ParseRejects
  intro bytes
  rw [parse_eq]
  refine ⟨fun hshort => if_pos hshort,
    fun (h16 : Config.headerSize ≤ bytes.length) (hmagic : bytes.take 4 ≠ magic) => ?_,
    fun (h16 : Config.headerSize ≤ bytes.length) (hmagic : bytes.take 4 = magic) hsize => ?_, ?_⟩
  · rw [if_neg (Nat.not_lt.mpr h16), if_pos hmagic]
  · rw [if_neg (Nat.not_lt.mpr h16), if_neg (not_not.mpr hmagic), if_pos hsize]
  · split_ifs <;> nofun

/-- The mapper id has the high nibble of header byte 7 above that of byte 6 (R89). -/
theorem mapperIdOf_toNat (flags6 flags7 : Byte) :
    (mapperIdOf flags6 flags7).toNat = 16 * (flags7.toNat / 16) + flags6.toNat / 16 := by
  have hhigh : ∀ f : Byte, (f &&& ((0xF0 : Nat) : Byte)).toNat = (f.toNat / 16) <<< 4 := by decide
  have hlow : flags6.toNat / 16 < 2 ^ 4 := by omega
  rw [mapperIdOf, BitVec.toNat_or, hhigh, BitVec.toNat_ushiftRight, Nat.shiftRight_eq_div_pow,
    ← Nat.shiftLeft_add_eq_or_of_lt hlow, Nat.shiftLeft_eq, Nat.mul_comm]

/-- The image of a container is well formed (R33, R86). -/
theorem containerImage_wf (bytes : List Byte) : (containerImage bytes).wf := by
  have htrainer : trainerOf bytes = 0 ∨ trainerOf bytes = Config.trainerSize := by
    unfold trainerOf
    split
    · exact .inr rfl
    · exact .inl rfl
  simp [CartridgeImage.wf, containerImage, ByteSeq.wf_ofList, htrainer]

/-- Settles O58: both ROMs lie inside an input of the exact size, so their bytes are the input's. -/
theorem parseAccepts : Obligations.ParseAccepts := by
  unfold Obligations.ParseAccepts
  intro bytes (h16 : Config.headerSize ≤ bytes.length) (hmagic : bytes.take 4 = magic) trainer prg chr hlength
  have hsize : bytes.length = expectedSize bytes := hlength
  have hparse : parse bytes = .ok (containerImage bytes) := by
    rw [parse_eq, if_neg (Nat.not_lt.mpr h16), if_neg (not_not.mpr hmagic), if_neg (not_not.mpr hsize)]
  have hprg : (bytesAt bytes (16 + trainer) prg).length = prg := length_bytesAt _ _ _ (by omega)
  have hchr : (bytesAt bytes (16 + trainer + prg) chr).length = chr := length_bytesAt _ _ _ (by omega)
  refine ⟨containerImage bytes, hparse, containerImage_wf bytes, rfl, hprg, fun k hk => ?_, hchr, fun k hk => ?_,
    mapperIdOf_toNat _ _, rfl⟩
  · exact (ByteSeq.read_ofList _ k (hprg.symm ▸ hk)).trans (getD_bytesAt _ _ _ k hk)
  · exact (ByteSeq.read_ofList _ k (hchr.symm ▸ hk)).trans (getD_bytesAt _ _ _ k hk)

/-- A program-ROM size is legal when it is one of the two (R74, decision D9). -/
theorem prgSizeLegal_iff (n : Nat) : prgSizeLegal n ↔ n = 16384 ∨ n = 32768 := by
  simp [prgSizeLegal, Config.prgUnit]

/-- A store made of a function's values reads as the function. -/
theorem Store.read_ofFn {n : Nat} (f : Fin n → Byte) (k : Fin n) :
    Store.read (Store.ofList 0 (List.ofFn f)) k = f k := by
  have h := Store.read_ofList 0 k (List.ofFn f) (by simp)
  rwa [Nat.zero_add, List.getElem_ofFn] at h

/-- A store made of a function's values is canonical. -/
theorem Store.wf_ofFn {n : Nat} (f : Fin n → Byte) : Store.wf n (Store.ofList 0 (List.ofFn f)) := by
  have h := Store.wfFrom_ofList 0 (List.ofFn f)
  rwa [Nat.zero_add, List.length_ofFn] at h

/-- The bus with this image whose stores hold the OPEN contents (R31, R74). -/
def PowerOn.bus (init : PowerOn) (img : CartridgeImage) : Bus :=
  { ram := Store.ofList 0 (List.ofFn init.ramInit)
    ppuStub := Store.ofList 0 (List.ofFn init.ppuStubInit)
    ioStub := Store.ofList 0 (List.ofFn init.ioStubInit)
    image := img }

/-- A legal size makes a bus (R74). -/
theorem newBus_of_legal (img : CartridgeImage) (init : PowerOn) (h : prgSizeLegal img.prgRom.size) :
    newBus img init = .ok (init.bus img) := if_pos h

/-- Another size makes none (R74, decision D9). -/
theorem newBus_of_not_legal (img : CartridgeImage) (init : PowerOn) (h : ¬ prgSizeLegal img.prgRom.size) :
    newBus img init = .error (.formatInvalid .prgSize) := if_neg h

section
variable (init : PowerOn) (img : CartridgeImage)

/-- A new bus is canonical if its image is and has a legal size. -/
theorem PowerOn.wf_bus (hw : img.wf) (h : prgSizeLegal img.prgRom.size) : Memory.wf (init.bus img) := by
  simp only [Memory.wf, Bool.and_eq_true, PowerOn.bus]
  exact ⟨⟨⟨⟨Store.wf_ofFn init.ramInit, Store.wf_ofFn init.ppuStubInit⟩, Store.wf_ofFn init.ioStubInit⟩,
    hw⟩, h⟩

/-- RAM reads as its OPEN contents (decision D5). -/
theorem PowerOn.read_bus_ram (k : Fin 2048) : (init.bus img).read (BitVec.ofNat 16 k) = init.ramInit k := by
  have ha : (BitVec.ofNat 16 k).toNat = k := by rw [BitVec.toNat_ofNat]; omega
  rw [Bus.read, Bus.target_ram _ _ (by omega), ha, Nat.mod_eq_of_lt k.isLt]
  simp only [PowerOn.bus]
  exact Store.read_ofFn init.ramInit k

/-- The video stub reads as its OPEN contents (decision D6). -/
theorem PowerOn.read_bus_ppu (k : Fin 8) : (init.bus img).read (BitVec.ofNat 16 (0x2000 + k)) = init.ppuStubInit k := by
  have ha : (BitVec.ofNat 16 (0x2000 + k)).toNat = 0x2000 + k := by rw [BitVec.toNat_ofNat]; omega
  have hmod : (0x2000 + k.val) % 8 = k := by omega
  rw [Bus.read, Bus.target_ppu _ _ (by omega) (by omega), ha, hmod]
  exact Store.read_ofFn init.ppuStubInit k

/-- The IO stub reads as its OPEN contents (decision D6). -/
theorem PowerOn.read_bus_io (k : Fin 24) : (init.bus img).read (BitVec.ofNat 16 (0x4000 + k)) = init.ioStubInit k := by
  have ha : (BitVec.ofNat 16 (0x4000 + k)).toNat = 0x4000 + k := by rw [BitVec.toNat_ofNat]; omega
  rw [Bus.read, Bus.target_io _ _ (by omega) (by omega), ha, Nat.add_sub_cancel_left]
  exact Store.read_ofFn init.ioStubInit k

end

/-- Settles O59: the constructor's two branches. -/
theorem busConstruction : Obligations.BusConstruction := by
  unfold Obligations.BusConstruction
  refine fun img init => ⟨fun h16 h32 => ?_, fun hsize => ?_⟩
  · exact newBus_of_not_legal img init (by rw [prgSizeLegal_iff]; tauto)
  · have hlegal := (prgSizeLegal_iff _).mpr hsize
    exact ⟨init.bus img, newBus_of_legal img init hlegal, rfl, fun hw => init.wf_bus img hw hlegal,
      init.read_bus_ram img, init.read_bus_ppu img, init.read_bus_io img⟩

end Sys2Proof.Machine
end

section
/-! PROOFS, 30_encoding. Decoding and encoding are inverse to each other, and the bytes the decoder takes (R100 to
R108, R112). -/

namespace Sys2Proof

open Machine

/-- The number of operand bytes follows from the mode (R101, R102). -/
theorem Operand.length_bytes (o : Operand) : o.bytes.length = o.mode.operandBytes := by
  cases o with
  | memory m => cases m <;> rfl
  | _ => rfl

/-- The operand of an instruction has the bytes its opcode's descriptor asks for (R102, R107). -/
theorem length_operand_bytes (i : Instr) (h : i.wellFormed) :
    i.operand.bytes.length = (descriptor (opcode i)).mode.operandBytes := by
  rw [Operand.length_bytes, (descriptor_opcode i h).2]

section
open Laws

/-- The row of its opcode makes every instruction again from its operand bytes (R101, R106, R108). -/
theorem instrOf_opcode_operand_bytes : ∀ i : Instr, Row.Statement i
  | .ldaIndX z => Row.ldaIndX z | .ldaZp z => Row.ldaZp z | .ldaImm v => Row.ldaImm v | .ldaAbs a => Row.ldaAbs a
  | .ldaIndY z => Row.ldaIndY z | .ldaZpX z => Row.ldaZpX z | .ldaAbsY a => Row.ldaAbsY a
  | .ldaAbsX a => Row.ldaAbsX a
  | .ldxImm v => Row.ldxImm v | .ldxZp z => Row.ldxZp z | .ldxAbs a => Row.ldxAbs a | .ldxZpY z => Row.ldxZpY z
  | .ldxAbsY a => Row.ldxAbsY a
  | .ldyImm v => Row.ldyImm v | .ldyZp z => Row.ldyZp z | .ldyAbs a => Row.ldyAbs a | .ldyZpX z => Row.ldyZpX z
  | .ldyAbsX a => Row.ldyAbsX a
  | .staIndX z => Row.staIndX z | .staZp z => Row.staZp z | .staAbs a => Row.staAbs a | .staIndY z => Row.staIndY z
  | .staZpX z => Row.staZpX z | .staAbsY a => Row.staAbsY a | .staAbsX a => Row.staAbsX a
  | .stxZp z => Row.stxZp z | .stxAbs a => Row.stxAbs a | .stxZpY z => Row.stxZpY z
  | .styZp z => Row.styZp z | .styAbs a => Row.styAbs a | .styZpX z => Row.styZpX z
  | .tax => Row.tax | .tay => Row.tay | .tsx => Row.tsx | .txa => Row.txa | .txs => Row.txs | .tya => Row.tya
  | .pha => Row.pha | .php => Row.php | .pla => Row.pla | .plp => Row.plp
  | .adcIndX z => Row.adcIndX z | .adcZp z => Row.adcZp z | .adcImm v => Row.adcImm v | .adcAbs a => Row.adcAbs a
  | .adcIndY z => Row.adcIndY z | .adcZpX z => Row.adcZpX z | .adcAbsY a => Row.adcAbsY a
  | .adcAbsX a => Row.adcAbsX a
  | .sbcIndX z => Row.sbcIndX z | .sbcZp z => Row.sbcZp z | .sbcImm v => Row.sbcImm v | .sbcAbs a => Row.sbcAbs a
  | .sbcIndY z => Row.sbcIndY z | .sbcZpX z => Row.sbcZpX z | .sbcAbsY a => Row.sbcAbsY a
  | .sbcAbsX a => Row.sbcAbsX a
  | .andIndX z => Row.andIndX z | .andZp z => Row.andZp z | .andImm v => Row.andImm v | .andAbs a => Row.andAbs a
  | .andIndY z => Row.andIndY z | .andZpX z => Row.andZpX z | .andAbsY a => Row.andAbsY a
  | .andAbsX a => Row.andAbsX a
  | .oraIndX z => Row.oraIndX z | .oraZp z => Row.oraZp z | .oraImm v => Row.oraImm v | .oraAbs a => Row.oraAbs a
  | .oraIndY z => Row.oraIndY z | .oraZpX z => Row.oraZpX z | .oraAbsY a => Row.oraAbsY a
  | .oraAbsX a => Row.oraAbsX a
  | .eorIndX z => Row.eorIndX z | .eorZp z => Row.eorZp z | .eorImm v => Row.eorImm v | .eorAbs a => Row.eorAbs a
  | .eorIndY z => Row.eorIndY z | .eorZpX z => Row.eorZpX z | .eorAbsY a => Row.eorAbsY a
  | .eorAbsX a => Row.eorAbsX a
  | .bitZp z => Row.bitZp z | .bitAbs a => Row.bitAbs a
  | .cmpIndX z => Row.cmpIndX z | .cmpZp z => Row.cmpZp z | .cmpImm v => Row.cmpImm v | .cmpAbs a => Row.cmpAbs a
  | .cmpIndY z => Row.cmpIndY z | .cmpZpX z => Row.cmpZpX z | .cmpAbsY a => Row.cmpAbsY a
  | .cmpAbsX a => Row.cmpAbsX a
  | .cpxImm v => Row.cpxImm v | .cpxZp z => Row.cpxZp z | .cpxAbs a => Row.cpxAbs a
  | .cpyImm v => Row.cpyImm v | .cpyZp z => Row.cpyZp z | .cpyAbs a => Row.cpyAbs a
  | .incZp z => Row.incZp z | .incAbs a => Row.incAbs a | .incZpX z => Row.incZpX z | .incAbsX a => Row.incAbsX a
  | .decZp z => Row.decZp z | .decAbs a => Row.decAbs a | .decZpX z => Row.decZpX z | .decAbsX a => Row.decAbsX a
  | .inx => Row.inx | .iny => Row.iny | .dex => Row.dex | .dey => Row.dey
  | .aslZp z => Row.aslZp z | .aslAcc => Row.aslAcc | .aslAbs a => Row.aslAbs a | .aslZpX z => Row.aslZpX z
  | .aslAbsX a => Row.aslAbsX a
  | .lsrZp z => Row.lsrZp z | .lsrAcc => Row.lsrAcc | .lsrAbs a => Row.lsrAbs a | .lsrZpX z => Row.lsrZpX z
  | .lsrAbsX a => Row.lsrAbsX a
  | .rolZp z => Row.rolZp z | .rolAcc => Row.rolAcc | .rolAbs a => Row.rolAbs a | .rolZpX z => Row.rolZpX z
  | .rolAbsX a => Row.rolAbsX a
  | .rorZp z => Row.rorZp z | .rorAcc => Row.rorAcc | .rorAbs a => Row.rorAbs a | .rorZpX z => Row.rorZpX z
  | .rorAbsX a => Row.rorAbsX a
  | .bpl o => Row.bpl o
  | .bmi o => Row.bmi o
  | .bvc o => Row.bvc o
  | .bvs o => Row.bvs o
  | .bcc o => Row.bcc o
  | .bcs o => Row.bcs o
  | .bne o => Row.bne o
  | .beq o => Row.beq o
  | .jmpAbs t => Row.jmpAbs t | .jmpInd ptr => Row.jmpInd ptr
  | .brk => Row.brk | .rti => Row.rti
  | .jsr t => Row.jsr t
  | .rts => Row.rts | .clc => Row.clc | .cld => Row.cld | .cli => Row.cli | .clv => Row.clv | .sec => Row.sec
  | .sed => Row.sed | .sei => Row.sei | .nop => Row.nop
  | .illegal op => Row.illegal op

end

/-- The decoder takes exactly the operand bytes its opcode asks for, whatever follows them (R107). -/
theorem decode_append (op : Byte) (operands rest : List Byte)
    (h : operands.length = (descriptor op).mode.operandBytes) :
    decode (op :: (operands ++ rest)) = .ok (instrOf op (operands.getD 0 0) (operands.getD 1 0), rest) := by
  match operands, h with
  | [], h => exact decode_zero op rest h.symm
  | [b1], h => exact decode_one op b1 rest h.symm
  | [b1, b2], h => exact decode_two op b1 b2 rest h.symm
  | _ :: _ :: _ :: _, h =>
    have hle := AddrMode.operandBytes_le (descriptor op).mode
    rw [← h, List.length_cons, List.length_cons, List.length_cons] at hle
    omega

/-- Settles O1: the decoder takes the operand bytes of the instruction, and its opcode's row makes it again. -/
theorem decodeOfEncode : Obligations.DecodeOfEncode := by
  unfold Obligations.DecodeOfEncode
  intro i rest h
  rw [encode, List.cons_append, decode_append _ _ _ (length_operand_bytes i h), instrOf_opcode_operand_bytes i h]

/-- At most two bytes are given back by their positions, 0 standing where there is none. -/
theorem take_length_getD (bytes : List Byte) (h : bytes.length ≤ 2) :
    [bytes.getD 0 0, bytes.getD 1 0].take bytes.length = bytes := by
  match bytes, h with
  | [], _ | [_], _ | [_, _], _ => rfl

/-- Where the operand bytes are there, the decoder answers a well-formed instruction made of the bytes it took
(R107). -/
theorem decode_of_operandBytes_le (op : Byte) (more : List Byte)
    (h : (descriptor op).mode.operandBytes ≤ more.length) :
    ∃ i, decode (op :: more) = .ok (i, more.drop (descriptor op).mode.operandBytes) ∧ i.wellFormed ∧ opcode i = op ∧
      i.operand.bytes = more.take (descriptor op).mode.operandBytes := by
  have hlen := List.length_take_of_le h
  have hdec := decode_append op _ (more.drop (descriptor op).mode.operandBytes) hlen
  rw [List.take_append_drop] at hdec
  obtain ⟨hop, hwf, hbytes⟩ := instrOf_spec op _ _
  refine ⟨_, hdec, hwf, hop, hbytes.trans ?_⟩
  have htake := take_length_getD _ (hlen.trans_le (AddrMode.operandBytes_le _))
  rwa [hlen] at htake

/-- A string that ends before the operand bytes do is rejected (R107). -/
theorem decode_of_lt_operandBytes (op : Byte) (more : List Byte)
    (h : more.length < (descriptor op).mode.operandBytes) : decode (op :: more) = .error .operandMissing := by
  have hle := AddrMode.operandBytes_le (descriptor op).mode
  match more with
  | [] =>
    obtain h1 | h2 : (descriptor op).mode.operandBytes = 1 ∨ (descriptor op).mode.operandBytes = 2 := by
      rw [List.length_nil] at h
      omega
    · simp [decode, h1]
    · simp [decode, h2]
  | [_] =>
    have h2 : (descriptor op).mode.operandBytes = 2 := Nat.le_antisymm hle h
    simp [decode, h2]
  | _ :: _ :: _ =>
    rw [List.length_cons, List.length_cons] at h
    omega

/-- Settles O2: the string holds the operand bytes, and the instruction is made of the bytes taken. -/
theorem encodeOfDecode : Obligations.EncodeOfDecode := by
  unfold Obligations.EncodeOfDecode
  intro bytes rest i hdec
  cases bytes with
  | nil => cases hdec
  | cons op more =>
    rcases Nat.lt_or_ge more.length (descriptor op).mode.operandBytes with hlt | hle
    · rw [decode_of_lt_operandBytes op more hlt] at hdec
      cases hdec
    · obtain ⟨j, hj, hwf, hop, hbytes⟩ := decode_of_operandBytes_le op more hle
      obtain ⟨rfl, rfl⟩ : j = i ∧ more.drop (descriptor op).mode.operandBytes = rest := by simpa [hj] using hdec
      refine ⟨hwf, ?_⟩
      rw [encode, hop, hbytes, List.cons_append, List.take_append_drop]

/-- Settles O3: the length is one more than the number of operand bytes. -/
theorem decodeTakesDescriptorLength : Obligations.DecodeTakesDescriptorLength := by
  unfold Obligations.DecodeTakesDescriptorLength
  intro op more h
  rw [Descriptor.length, Nat.add_sub_cancel_left] at h ⊢
  obtain ⟨i, hdec, -, hop, hbytes⟩ := decode_of_operandBytes_le op more h
  refine ⟨i, hdec, hop, ?_⟩
  rw [encode, hbytes, List.length_cons, List.length_take_of_le h, Nat.add_comm]

/-- Settles O6: the decoder run on each word. -/
theorem sampleWordsDecode : Obligations.SampleWordsDecode := by
  unfold Obligations.SampleWordsDecode
  exact ⟨rfl, rfl, rfl, rfl, rfl, rfl, rfl, rfl, rfl⟩

end Sys2Proof
end

section
/-! PROOFS, 40_execution. The addressing-mode resolver in numbers: the effective address of every memory mode, and its
page-cross bit (R138 to R146). -/

namespace Sys2Proof.Machine

/-- A zero-page address named by a number that its byte is mod 256 (R104). -/
theorem zeroPage_eq_ofNat (z : Byte) (n : Nat) (h : z.toNat = n % 256) : zeroPage z = BitVec.ofNat 16 (n % 256) := by
  rw [← h, BitVec.ofNat_toNat, zeroPage]

/-- Settles O13: a byte is its own zero-page address, and a sum of bytes is taken mod 256. -/
theorem resolveZeroPage : Obligations.ResolveZeroPage := by
  unfold Obligations.ResolveZeroPage
  intro s z
  refine ⟨?zp, ?zpX, ?zpY⟩
  case zp => rw [resolve, zeroPage, BitVec.ofNat_toNat]
  case zpX => rw [resolve, zeroPage_eq_ofNat _ _ (BitVec.toNat_add z s.x)]
  case zpY => rw [resolve, zeroPage_eq_ofNat _ _ (BitVec.toNat_add z s.y)]

/-- The page of an address is the address rounded down to a multiple of 256 (R10). -/
theorem page_toNat (a : Addr) : (page a).toNat = a.toNat / 256 * 256 := by
  have hshift : page a = (a >>> 8) <<< 8 := by
    rw [page, BitVec.shiftLeft_ushiftRight]
    rfl
  have hlt := a.isLt
  rw [hshift, BitVec.toNat_shiftLeft, BitVec.toNat_ushiftRight, Nat.shiftRight_eq_div_pow, Nat.shiftLeft_eq]
  omega

/-- Two addresses are on one page exactly if their high bytes agree (R10). -/
theorem page_eq_iff (a b : Addr) : page a = page b ↔ a.toNat / 256 = b.toNat / 256 := by
  rw [← BitVec.toNat_inj, page_toNat, page_toNat]
  omega

/-- Indexing adds mod 65536 and reports a cross exactly if the high byte changes (R143, R144, R146). -/
theorem indexed_eq (base : Addr) (i : Byte) (s : State) :
    indexed base i s = ⟨BitVec.ofNat 16 (base.toNat + i.toNat),
      decide ((base.toNat + i.toNat) % 65536 / 256 ≠ base.toNat / 256), s⟩ := by
  have hea : base + i.setWidth 16 = BitVec.ofNat 16 (base.toNat + i.toNat) := by
    rw [BitVec.ofNat_add, BitVec.ofNat_toNat, BitVec.ofNat_toNat, BitVec.setWidth_eq]
  have hcrossed : (page base != page (BitVec.ofNat 16 (base.toNat + i.toNat))) =
      decide ((base.toNat + i.toNat) % 65536 / 256 ≠ base.toNat / 256) := by
    rw [Bool.eq_iff_iff, bne_iff_ne, decide_eq_true_eq, ne_comm, ne_eq, page_eq_iff, BitVec.toNat_ofNat]
  rw [indexed, hea, hcrossed]

/-- Settles O14: the base itself, and the base indexed by X and by Y. -/
theorem resolveAbsolute : Obligations.ResolveAbsolute := by
  unfold Obligations.ResolveAbsolute
  exact fun s a => ⟨rfl, indexed_eq a s.x s, indexed_eq a s.y s⟩

/-- The pointer word of zero page byte `n` mod 256: its high byte stands at `n + 1` mod 256 (R12). -/
theorem State.zpWord_toNat (s : State) (z : Byte) (n : Nat) (h : z.toNat = n % 256) :
    (s.zpWord z).toNat = (s.bus.read (BitVec.ofNat 16 (n % 256))).toNat +
      256 * (s.bus.read (BitVec.ofNat 16 ((n + 1) % 256))).toNat := by
  have hnext : (z + 1).toNat = (n + 1) % 256 := by
    rw [BitVec.toNat_add, h]
    exact Nat.mod_add_mod n 256 1
  rw [State.zpWord, word_toNat, zeroPage_eq_ofNat z n h, zeroPage_eq_ofNat (z + 1) (n + 1) hnext]
  rfl

/-- Settles O15: the effective address of (zp,X) is a pointer word, and (zp),Y indexes one. -/
theorem resolveIndirect : Obligations.ResolveIndirect := by
  unfold Obligations.ResolveIndirect
  intro s z zpByte base
  refine ⟨?indX, ?indY⟩
  case indX =>
    have hword := s.zpWord_toNat (z + s.x) _ (BitVec.toNat_add z s.x)
    rw [resolve, State.afterZpWord_eq, ← hword, BitVec.ofNat_toNat, BitVec.setWidth_eq]
  case indY =>
    have hbase : (s.zpWord z).toNat = base := s.zpWord_toNat z _ (Nat.mod_eq_of_lt z.isLt).symm
    rw [resolve, State.afterZpWord_eq, indexed_eq, hbase]

end Sys2Proof.Machine
end

section
/-! PROOFS, 40_execution. How a step ends: the cycles of every instruction, and the report of an illegal byte (R148 to
R154). -/

namespace Sys2Proof.Machine

/-- The mnemonic of a branch and the flag it tests agree on when it is taken (R281 to R288). -/
theorem branchTaken_eq (mn : Mnemonic) (f : Flag) (b : Bool) (h : branchFlag mn = some (f, b)) (p : Byte) :
    branchTaken mn p = (getFlag f p == b) := by
  cases mn <;> cases h <;> simp [branchTaken]

/-- A branch ends with one penalty cycle if it is taken, and one more if that changes the page (R280). -/
theorem execBranch_eq (op : Byte) (cond : Bool) (o : Byte) (s : State) :
    execBranch op cond o s =
      finish op false
        (if cond then 1 + if page (branchTarget s.pc o) = page s.pc then 0 else 1 else 0)
        (if cond then s.setPc (branchTarget s.pc o) else s) := by
  cases cond with
  | false => rfl
  | true =>
    by_cases hpage : page (branchTarget s.pc o) = page s.pc <;> simp [execBranch, hpage]

/-- Every instruction but an illegal byte ends in `finish`, with the page-cross bit of its operand and its own penalty
(R130, R148, R154). -/
theorem exec_finish (i : Instr) (s : State) :
    (∃ t, exec i s = finish (opcode i) (crosses i.operand s) (ownPenalty i s) t) ∨ ∃ op, i = .illegal op := by
  rcases instr_shape i with ⟨act, h⟩ | ⟨r, h⟩ | ⟨f, h⟩ | ⟨act, h⟩ | ⟨f, b, h⟩ | ⟨a, rfl⟩ | ⟨a, rfl⟩ | ⟨a, rfl⟩ | ⟨op, rfl⟩
  · obtain ⟨src, ho, hx⟩ := exec_read i act h
    rw [ownPenalty, ho]
    cases src with
    | imm v => exact .inl ⟨_, (hx s).trans (execRead_imm _ _ _ _)⟩
    | mem m => exact .inl ⟨_, (hx s).trans (execRead_mem _ _ _ _)⟩
  · obtain ⟨m, ho, hx⟩ := exec_store i r h
    rw [ownPenalty, ho]
    exact .inl ⟨_, (hx s).trans (execStore_eq _ _ _ _)⟩
  · obtain ⟨place, ho, hx⟩ := exec_modify i f h
    rw [ownPenalty, ho]
    cases place with
    | acc => exact .inl ⟨_, (hx s).trans (execModify_acc _ _ _)⟩
    | mem m => exact .inl ⟨_, (hx s).trans (execModify_mem _ _ _ _)⟩
  · obtain ⟨ho, hx⟩ := exec_implied i act h
    rw [ownPenalty, ho]
    exact .inl ⟨_, hx s⟩
  · obtain ⟨o, ho, hx⟩ := exec_branch i f b h
    rw [ownPenalty, ho, branchTaken_eq _ f b h]
    exact .inl ⟨_, (hx s).trans (execBranch_eq _ _ _ _)⟩
  · exact .inl ⟨_, rfl⟩
  · exact .inl ⟨_, rfl⟩
  · exact .inl ⟨_, rfl⟩
  · exact .inr ⟨op, rfl⟩

/-- The page-cross cycle is charged where the descriptor has the flag and the resolver crossed (R148). -/
theorem cycleTotal_eq (op : Byte) (crossed : Bool) (extra : Nat) :
    cycleTotal op crossed extra =
      (descriptor op).baseCycles + (if (descriptor op).pageCross = true ∧ crossed = true then 1 else 0) + extra := by
  simp only [cycleTotal, Bool.and_eq_true]

/-- Settles O27: the cycles of `finish`, and those of an illegal byte, which has no operand and no penalty. -/
theorem cyclesFormula : Obligations.CyclesFormula := by
  unfold Obligations.CyclesFormula
  intro i s
  rw [← cycleTotal_eq]
  rcases exec_finish i s with ⟨t, ht⟩ | ⟨op, rfl⟩
  case inl => exact ⟨_, none, ht, rfl⟩
  case inr => exact ⟨_, some (.unimplementedOpcode op (s.pc - 1)), rfl, rfl⟩

/-- Settles O56: the descriptor of an illegal byte has 2 cycles and no page-cross flag. -/
theorem illegalByteReportsAndGoesOn : Obligations.IllegalByteReportsAndGoesOn := by
  unfold Obligations.IllegalByteReportsAndGoesOn
  intro op s h
  have hcycles : cycleTotal op false 0 = 2 := by
    rw [cycleTotal, (illegal_row op (List.contains_iff_mem.mp h)).1]
    rfl
  rw [exec, execIllegal, finishIllegal, hcycles]
  rfl

end Sys2Proof.Machine
end

section
/-! PROOFS, 40_execution. The stack, the step in Ready and the engine state Halted (R130, R147, R152). -/

namespace Sys2Proof.Machine

/-- Settles O37: SP goes down by one and up again, so the pull reads the stack byte the push wrote. -/
theorem pushPullRoundTrip : Obligations.PushPullRoundTrip := by
  unfold Obligations.PushPullRoundTrip
  intro s v hw
  have hsp : s.sp - 1 + 1 = s.sp := BitVec.sub_add_cancel s.sp 1
  refine ⟨?byte, ?sp⟩
  case byte =>
    rw [State.push_eq, State.pulled, State.memByte, hsp]
    exact Bus.read_write_stack_same s.bus s.sp v hw
  case sp => rw [State.afterPull_eq, State.setSp_sp, State.push_eq, hsp]

/-- An instruction has the length of its opcode's descriptor (R102, R107). -/
theorem length_encode (i : Instr) (h : i.wellFormed) : (encode i).length = (descriptor (opcode i)).length := by
  rw [encode, List.length_cons, length_operand_bytes i h, Descriptor.length, Nat.add_comm]

/-- Settles O16: the fetched instruction is the decoded one, and its opcode's descriptor has its length. -/
theorem stepRunsDecodedInstruction : Obligations.StepRunsDecodedInstruction := by
  unfold Obligations.StepRunsDecodedInstruction
  intro s i rest hready hdec
  obtain ⟨rest', hfetched⟩ := s.decode_fetched
  obtain ⟨rfl, -⟩ : s.fetchedInstr = i ∧ rest' = rest :=
    Prod.mk.inj (Except.ok.inj (hfetched.symm.trans hdec))
  obtain ⟨hop, hwf⟩ := s.fetchedInstr_spec
  rw [step_of_ready s hready, State.afterInstr_eq, length_encode _ hwf, hop]

/-- A step in Halted is the fault `halted` (R152). -/
theorem step_of_halted (s : State) (h : s.run = .halted) : step s = .fault .halted := by
  rw [step, h]

/-- `reset()` sets the engine state whatever it was (R360, R363). -/
theorem State.hostReset_setRun (s : State) (r : RunState) : (s.setRun r).hostReset = s.hostReset := rfl

/-- Settles O20: `abort()` writes the engine state alone, `step` looks at it first, and `reset()` writes it. -/
theorem haltedIsStuckUntilReset : Obligations.HaltedIsStuckUntilReset := by
  unfold Obligations.HaltedIsStuckUntilReset
  exact fun s => ⟨rfl, step_of_halted s.hostAbort rfl, step_of_halted s, rfl, s.hostReset_setRun .halted⟩

end Sys2Proof.Machine
end

section
/-! PROOFS, 41_load_store_transfer. What each load, store and transfer answers (R171 to R182). -/

namespace Sys2Proof.Machine

/-- The register each plain load writes. -/
def loadedReg : Mnemonic → Option Reg
  | .lda => some .a | .ldx => some .x | .ldy => some .y
  | _ => none

/-- The action of a plain load is `SetReg` of its register (R171 to R173). -/
theorem readAction_of_loadedReg (mn : Mnemonic) (r : Reg) (h : loadedReg mn = some r) :
    readAction mn = some (loadReg r) := by
  cases mn <;> cases h <;> rfl

/-- A plain load completes with `SetReg` of the loaded byte, and logs the load (R171 to R173). -/
theorem exec_load_done (i : Instr) (s : State) (r : Reg) (h : loadedReg i.mnemonic = some r) :
    ∃ v, loadedByte i.operand s = some v ∧ exec i s = .next ((s.loaded i).setRegZN r v) := by
  have hact := readAction_of_loadedReg _ r h
  obtain ⟨v, hv, hx⟩ := exec_read_loaded i s _ hact (fun v => (readAction_effect _ _ hact v).1)
  refine ⟨v, hv, hx.trans ?_⟩
  cases r <;> rfl

/-- Settles O32: the mnemonic names the register, and `SetReg` writes it with Z and N. -/
theorem loadInstructions : Obligations.LoadInstructions := by
  unfold Obligations.LoadInstructions
  intro i s hi
  have hloads : ∀ mn ∈ ([.lda, .ldx, .ldy] : List Mnemonic), (loadedReg mn).isSome := by decide
  obtain ⟨r, hr⟩ := Option.isSome_iff_exists.mp (hloads _ hi)
  obtain ⟨v, hv, hx⟩ := exec_load_done i s r hr
  refine ⟨v, setZN v s.p, hv, flagsAre_setZN v s.p, ?lda, ?ldx, ?ldy⟩
  all_goals
    intro hm
    rw [hm] at hr
    cases hr
    exact hx

/-- Settles O33: the mnemonic names the register, which is the byte written. -/
theorem storeInstructions : Obligations.StoreInstructions := by
  unfold Obligations.StoreInstructions
  intro i s hi
  have hstores : ∀ mn ∈ ([.sta, .stx, .sty] : List Mnemonic), (storedReg mn).isSome := by decide
  obtain ⟨r, hr⟩ := Option.isSome_iff_exists.mp (hstores _ hi)
  obtain ⟨ea, hea, hx⟩ := exec_store_done i s r hr
  refine ⟨ea, hea, ?sta, ?stx, ?sty⟩
  all_goals
    intro hm
    rw [hm] at hr
    cases hr
    exact hx

/-- Settles O34: each transfer is its action with the plain result, and all but TXS are a `SetReg`. -/
theorem transferInstructions : Obligations.TransferInstructions := by
  unfold Obligations.TransferInstructions
  intro s
  exact ⟨setZN s.a s.p, setZN s.x s.p, setZN s.y s.p, setZN s.sp s.p,
    flagsAre_setZN s.a s.p, flagsAre_setZN s.x s.p, flagsAre_setZN s.y s.p, flagsAre_setZN s.sp s.p,
    exec_implied_done .tax s _ rfl, exec_implied_done .tay s _ rfl, exec_implied_done .txa s _ rfl,
    exec_implied_done .tya s _ rfl, exec_implied_done .tsx s _ rfl, exec_implied_done .txs s _ rfl⟩

end Sys2Proof.Machine
end

section
/-! PROOFS, 42_stack. What each push and pull answers (R200 to R203). -/

namespace Sys2Proof.Machine

/-- An instruction that pushes `v` completes with `v` on the stack and SP moved down (R13, R200, R201). -/
theorem exec_push_done (i : Instr) (s : State) (pushed : State → Byte)
    (h : impliedAction i.mnemonic = some (fun t => t.push (pushed t))) :
    exec i s = .next { s.done i with bus := s.bus.write (stackAddr s.sp) (pushed s), sp := s.sp - 1 } := by
  rw [exec_implied_done i s _ h, State.push_eq]
  rfl

/-- The address a pull reads, in numbers: SP moves up mod 256, so it stays in the stack page (R22, R147). -/
theorem stackAddr_succ_toNat (sp : Byte) : (stackAddr (sp + 1)).toNat = 0x0100 + (sp.toNat + 1) % 256 := by
  rw [stackAddr_toNat, BitVec.toNat_add]
  rfl

/-- An instruction that pulls a byte and acts on it acts on the state with SP moved up (R13, R202, R203). -/
theorem exec_pull_done (i : Instr) (s : State) (act : Byte → State → State)
    (h : impliedAction i.mnemonic = some (fun t => act t.pulled t.afterPull)) :
    exec i s = .next { act (s.bus.read (stackAddr (s.sp + 1))) (s.setSp (s.sp + 1)) with
      result := plainResult i s } := by
  rw [exec_implied_done i s _ h, State.afterPull_eq]
  rfl

/-- Settles O35: both are a push, of A and of P, at the stack address of SP. -/
theorem pushInstructions : Obligations.PushInstructions := by
  unfold Obligations.PushInstructions
  intro s
  exact ⟨stackAddr s.sp, stackAddr_toNat s.sp, exec_push_done .pha s State.a rfl, exec_push_done .php s State.p rfl⟩

/-- Settles O36: both are a pull at the stack address of SP + 1, PLA with `SetReg` of A and PLP with the byte in P. -/
theorem pullInstructions : Obligations.PullInstructions := by
  unfold Obligations.PullInstructions
  intro s
  exact ⟨stackAddr (s.sp + 1), setZN (s.bus.read (stackAddr (s.sp + 1))) s.p, stackAddr_succ_toNat s.sp,
    flagsAre_setZN _ s.p,
    exec_pull_done .pla s (fun v t => t.setRegZN .a v) rfl, exec_pull_done .plp s (fun v t => t.setP v) rfl⟩

end Sys2Proof.Machine
end

section
/-! PROOFS, 43_arith_logic. Shared by the family: a load acts on the state with its operand loaded, and flags that are
written one after another (R130, R134). -/

namespace Sys2Proof.Machine

/-- A load completes with its action on the loaded byte, in the state where the load is logged and the result reported
(R130, R134). -/
theorem exec_read_done (i : Instr) (s : State) (act : Byte → State → State) (h : readAction i.mnemonic = some act) :
    ∃ v, loadedByte i.operand s = some v ∧ exec i s = .next (act v (s.loaded i)) := by
  have hblind v : OutputBlind (act v) := (readAction_effect _ _ h v).1
  obtain ⟨v, hv, hx⟩ := exec_read_loaded i s act h hblind
  exact ⟨v, hv, hx.trans (congrArg _ (hblind v s _ _).symm)⟩

/-- A flag written first joins the list of those written after it, if none of them is that flag. -/
theorem FlagsAre.after_setFlag {q p : Byte} {f : Flag} {b : Bool} {new : List (Flag × Bool)}
    (h : FlagsAre q (setFlag f b p) new) (hf : new.lookup f = none) : FlagsAre q p ((f, b) :: new) := by
  intro g
  rw [h g, getFlag_setFlag, List.lookup_cons]
  by_cases hg : g = f
  · simp [hg, hf]
  · simp [hg, beq_false_of_ne hg]

end Sys2Proof.Machine
end

section
/-! PROOFS, 43_arith_logic. ADC and SBC: the carry, the signed overflow and the decimal flag (R220, R222, R223). -/

namespace Sys2Proof.Machine

/-- The mask 0x80 tests the sign bit. -/
theorem and_signBit_ne_zero (x : Byte) : (x &&& 0x80 != 0) = x.msb := by
  have hmask : x &&& 0x80 = if x.getLsbD 7 then 0x80 else 0 := BitVec.and_twoPow x 7
  rw [hmask, BitVec.msb_eq_getLsbD_last]
  cases x.getLsbD 7 <;> rfl

/-- The overflow bit of ADC, set where both operands differ in sign from the result, says that the signed sum leaves
the range of a byte (R222). -/
theorem signedOverflow_eq (a m : Byte) (c : Bool) :
    (((a ^^^ BitVec.ofNat 8 (a.toNat + m.toNat + c.toNat)) &&& (m ^^^ BitVec.ofNat 8 (a.toNat + m.toNat + c.toNat)) &&&
      0x80) != 0) = decide (a.toInt + m.toInt + c.toNat < -128 ∨ 127 < a.toInt + m.toInt + c.toNat) := by
  have hc : c.toNat ≤ 1 := c.toNat_le
  have ha : a.toNat < 256 := a.isLt
  have hm : m.toNat < 256 := m.isLt
  rw [and_signBit_ne_zero, BitVec.msb_and, BitVec.msb_xor, BitVec.msb_xor, Bool.eq_iff_iff]
  simp only [BitVec.msb_eq_decide, BitVec.toInt_eq_toNat_cond, BitVec.toNat_ofNat, decide_eq_true_eq, Bool.and_eq_true,
    bne_iff_ne, ne_eq, decide_eq_decide]
  omega

/-- The flags of ADC (R222). -/
theorem flagsAre_addWithCarry (a m p : Byte) :
    FlagsAre (addWithCarry a m p).2 p
      ((.c, decide (256 ≤ a.toNat + m.toNat + carryIn p)) ::
        (.v, decide (a.toInt + m.toInt + carryIn p < -128 ∨ 127 < a.toInt + m.toInt + carryIn p)) ::
        znOf (BitVec.ofNat 8 (a.toNat + m.toNat + carryIn p))) := by
  rw [carryIn, ← signedOverflow_eq]
  exact ((flagsAre_setZN _ _).after_setFlag rfl).after_setFlag rfl

/-- Settles O38: the action of ADC is the sum of A, the loaded byte and C, with the flags of that sum. -/
theorem adcAddsWithCarry : Obligations.AdcAddsWithCarry := by
  unfold Obligations.AdcAddsWithCarry
  intro i s hi
  obtain ⟨m, hm, hx⟩ := exec_read_done i s addToA (by rw [hi]; rfl)
  exact ⟨m, (addWithCarry s.a m s.p).2, hm, flagsAre_addWithCarry s.a m s.p, hx⟩

/-- The complement SBC adds, as an unsigned number (R223). -/
theorem complement_toNat (m : Byte) : (m ^^^ 0xFF).toNat = 255 - m.toNat := by
  rw [show m ^^^ 0xFF = ~~~m from BitVec.xor_allOnes, BitVec.toNat_not]

/-- The complement SBC adds, as a signed number (R223). -/
theorem complement_toInt (m : Byte) : (m ^^^ 0xFF).toInt = -1 - m.toInt := by
  have hm : m.toNat < 256 := m.isLt
  rw [BitVec.toInt_eq_toNat_cond, BitVec.toInt_eq_toNat_cond, complement_toNat]
  omega

/-- The sum SBC forms is 256 above the difference, so both narrow to the same byte (R223). -/
theorem subtractWithBorrow_fst (a m p : Byte) :
    (subtractWithBorrow a m p).1 = BitVec.ofInt 8 (a.toNat - m.toNat - (1 - carryIn p)) := by
  have hm : m.toNat < 256 := m.isLt
  apply BitVec.eq_of_toNat_eq
  rw [subtractWithBorrow, addWithCarry, BitVec.toNat_ofNat, BitVec.toNat_ofInt, complement_toNat]
  omega

/-- The flags of SBC: its sum carries iff the difference needs no borrow, and its signed sum is the signed difference
(R223). -/
theorem flagsAre_subtractWithBorrow (a m p : Byte) :
    FlagsAre (subtractWithBorrow a m p).2 p
      ((.c, decide (0 ≤ (a.toNat - m.toNat - (1 - carryIn p) : Int))) ::
        (.v, decide (a.toInt - m.toInt - (1 - carryIn p) < -128 ∨ 127 < a.toInt - m.toInt - (1 - carryIn p))) ::
        znOf (BitVec.ofInt 8 (a.toNat - m.toNat - (1 - carryIn p)))) := by
  have hm : m.toNat < 256 := m.isLt
  have hcarry : (0 ≤ (a.toNat - m.toNat - (1 - carryIn p) : Int)) ↔
      256 ≤ a.toNat + (m ^^^ 0xFF).toNat + carryIn p := by
    rw [complement_toNat]
    omega
  have hsigned : a.toInt - m.toInt - (1 - carryIn p) = a.toInt + (m ^^^ 0xFF).toInt + carryIn p := by
    rw [complement_toInt]
    omega
  rw [← subtractWithBorrow_fst, decide_eq_decide.mpr hcarry, hsigned]
  exact flagsAre_addWithCarry a (m ^^^ 0xFF) p

/-- Settles O39: the action of SBC gives the difference of A, the loaded byte and the borrow, with its flags. -/
theorem sbcSubtractsWithBorrow : Obligations.SbcSubtractsWithBorrow := by
  unfold Obligations.SbcSubtractsWithBorrow
  intro i s hi
  obtain ⟨m, hm, hx⟩ := exec_read_done i s subtractFromA (by rw [hi]; rfl)
  refine ⟨m, (subtractWithBorrow s.a m s.p).2, hm, flagsAre_subtractWithBorrow s.a m s.p, hx.trans ?_⟩
  rw [subtractFromA, subtractWithBorrow_fst]
  rfl

/-- Two flags may be written in either order. -/
theorem setFlag_comm (f g : Flag) (b c : Bool) (p : Byte) (h : f ≠ g) :
    setFlag f b (setFlag g c p) = setFlag g c (setFlag f b p) := by
  apply byte_ext_of_flags
  intro k
  simp only [getFlag_setFlag]
  by_cases hf : k = f
  · rw [if_pos hf, if_neg (hf ▸ h), if_pos hf]
  · rw [if_neg hf, if_neg hf]

/-- Writing D and writing Z and N may be done in either order. -/
theorem setZN_setFlag_d (v p : Byte) (d : Bool) : setZN v (setFlag .d d p) = setFlag .d d (setZN v p) := by
  simp only [setZN, setFlag_comm .d _ _ _ _ (by decide : Flag.d ≠ .n), setFlag_comm .d _ _ _ _ (by decide : Flag.d ≠ .z)]

/-- The sum reads no D and writes no D (R220, decision D14). -/
theorem addWithCarry_setFlag_d (a m p : Byte) (d : Bool) :
    addWithCarry a m (setFlag .d d p) = ((addWithCarry a m p).1, setFlag .d d (addWithCarry a m p).2) := by
  have hcarry : carryIn (setFlag .d d p) = carryIn p := by simp [carryIn]
  have hcomm (f : Flag) (hf : Flag.d ≠ f) (b : Bool) (q : Byte) := setFlag_comm .d f d b q hf
  simp only [addWithCarry, hcarry, ← setZN_setFlag_d, hcomm .v (by decide), hcomm .c (by decide)]

/-- `s` with D set to `d`. -/
def State.withD (s : State) (d : Bool) : State := s.setP (setFlag .d d s.p)

/-- The action of ADC commutes with a change of D (R220, decision D14). -/
theorem addToA_withD (m : Byte) (s : State) (d : Bool) : addToA m (s.withD d) = (addToA m s).withD d := by
  have h : addWithCarry (s.withD d).a m (s.withD d).p = _ := addWithCarry_setFlag_d s.a m s.p d
  rw [addToA, h]
  rfl

/-- The resolver reads no flag, so the operand and the outputs of a load are those of any other status byte (R133). -/
theorem resolve_setP (m : MemOperand) (s : State) (p : Byte) :
    (resolve m (s.setP p)).ea = (resolve m s).ea ∧ (resolve m (s.setP p)).crossed = (resolve m s).crossed := by
  cases m <;> exact ⟨rfl, rfl⟩

/-- An operand gives the same byte whatever the status byte is. -/
theorem loadedByte_setP (o : Operand) (s : State) (p : Byte) : loadedByte o (s.setP p) = loadedByte o s := by
  cases o with
  | memory m => rw [loadedByte, (resolve_setP m s p).1]; rfl
  | implied | accumulator | immediate | relative => rfl

/-- Loading an operand reports and logs the same whatever the status byte is. -/
theorem State.loaded_setP (s : State) (i : Instr) (p : Byte) : (s.setP p).loaded i = (s.loaded i).setP p := by
  have hcrosses : crosses i.operand (s.setP p) = crosses i.operand s := by
    cases i.operand with
    | memory m => exact (resolve_setP m s p).2
    | implied | accumulator | immediate | relative => rfl
  have hdiags : loadDiags i.operand (s.setP p) = loadDiags i.operand s := by
    cases i.operand with
    | memory m => simp only [loadDiags, effectiveAddr, (resolve_setP m s p).1, State.setP_bus]
    | implied | accumulator | immediate | relative => rfl
  rw [State.loaded, State.loaded, plainResult, plainResult, hcrosses, hdiags]
  rfl

/-- A load whose action commutes with a change of D does the same with D at either value. -/
theorem exec_read_withD (i : Instr) (s : State) (d : Bool) (act : Byte → State → State)
    (h : readAction i.mnemonic = some act) (hact : ∀ m t, act m (t.withD d) = (act m t).withD d) :
    ∃ t, exec i s = .next t ∧ exec i (s.withD d) = .next (t.withD d) := by
  obtain ⟨m, hm, hx⟩ := exec_read_done i s act h
  obtain ⟨m', hm', hx'⟩ := exec_read_done i (s.withD d) act h
  have hsame : m' = m := Option.some.inj (hm'.symm.trans ((loadedByte_setP _ _ _).trans hm))
  refine ⟨_, hx, hx'.trans ?_⟩
  rw [hsame, State.withD, State.loaded_setP, ← hact]
  rfl

/-- Settles O40: ADC acts by the sum, and SBC by the sum with the complement; it neither reads nor writes D. -/
theorem decimalFlagIgnored : Obligations.DecimalFlagIgnored := by
  unfold Obligations.DecimalFlagIgnored
  intro i s d hi
  obtain hadc | hsbc : i.mnemonic = .adc ∨ i.mnemonic = .sbc := by simpa using hi
  · exact exec_read_withD i s d addToA (by rw [hadc]; rfl) (fun m t => addToA_withD m t d)
  · exact exec_read_withD i s d subtractFromA (by rw [hsbc]; rfl) (fun m t => addToA_withD (m ^^^ 0xFF) t d)

end Sys2Proof.Machine
end

section
/-! PROOFS, 43_arith_logic. AND, ORA, EOR, BIT and the compares (R221, R224 to R230). -/

namespace Sys2Proof.Machine

/-- The bitwise function of each logic instruction. -/
def logicFunction : Mnemonic → Option (Byte → Byte → Byte)
  | .and => some (· &&& ·) | .ora => some (· ||| ·) | .eor => some (· ^^^ ·)
  | _ => none

/-- The action of a logic instruction is `SetReg(A, _)` of its function (R224 to R226). -/
theorem readAction_of_logicFunction (mn : Mnemonic) (f : Byte → Byte → Byte) (h : logicFunction mn = some f) :
    readAction mn = some (fun m s => s.setRegZN .a (f s.a m)) := by
  cases mn <;> cases h <;> rfl

/-- Settles O41: the mnemonic names the function, and `SetReg` writes its result with Z and N. -/
theorem logicInstructions : Obligations.LogicInstructions := by
  unfold Obligations.LogicInstructions
  intro i s hi
  have hlogic : ∀ mn ∈ ([.and, .ora, .eor] : List Mnemonic), (logicFunction mn).isSome := by decide
  obtain ⟨f, hf⟩ := Option.isSome_iff_exists.mp (hlogic _ hi)
  obtain ⟨m, hm, hx⟩ := exec_read_done i s _ (readAction_of_logicFunction _ f hf)
  refine ⟨m, f s.a m, setZN (f s.a m) s.p, hm, flagsAre_setZN _ s.p, ?and, ?ora, ?eor, hx⟩
  all_goals
    intro hmn k
    rw [hmn] at hf
    cases hf
  case and => exact BitVec.getLsbD_and
  case ora => exact BitVec.getLsbD_or
  case eor => exact BitVec.getLsbD_xor

/-- The flags of BIT (R227). -/
theorem flagsAre_bitTest (a m p : Byte) :
    FlagsAre (bitTest a m p) p [(.z, decide (a &&& m = 0)), (.n, m.getLsbD 7), (.v, m.getLsbD 6)] :=
  ((flagsAre_setFlag .v _ _).after_setFlag rfl).after_setFlag rfl

/-- Settles O42: the action of BIT writes the status byte alone. -/
theorem bitTestsMemory : Obligations.BitTestsMemory := by
  unfold Obligations.BitTestsMemory
  intro i s hi
  obtain ⟨m, hm, hx⟩ := exec_read_done i s testBits (by rw [hi]; rfl)
  exact ⟨m, bitTest s.a m s.p, hm, flagsAre_bitTest s.a m s.p, hx⟩

/-- The flags of `Compare(r, m)`: the difference is 0 iff the two are equal (R221). -/
theorem flagsAre_compareFlags (r m p : Byte) :
    FlagsAre (compareFlags r m p) p
      [(.c, decide (m.toNat ≤ r.toNat)), (.z, decide (r = m)), (.n, (r - m).getLsbD 7)] := by
  have hzero : decide (r = m) = (r - m == 0) := by rw [beq_eq_decide, decide_eq_decide, sub_eq_zero]
  rw [hzero]
  exact (flagsAre_setZN (r - m) _).after_setFlag rfl

/-- The register each compare compares. -/
def comparedReg : Mnemonic → Option Reg
  | .cmp => some .a | .cpx => some .x | .cpy => some .y
  | _ => none

/-- The action of a compare is `Compare` of its register (R228 to R230). -/
theorem readAction_of_comparedReg (mn : Mnemonic) (r : Reg) (h : comparedReg mn = some r) :
    readAction mn = some (compareReg r) := by
  cases mn <;> cases h <;> rfl

/-- The register a compare compares, as the claim selects it (R228 to R230). -/
theorem reg_of_comparedReg (mn : Mnemonic) (r : Reg) (h : comparedReg mn = some r) (s : State) :
    (if mn = .cmp then s.a else if mn = .cpx then s.x else s.y) = s.reg r := by
  cases mn <;> cases h <;> rfl

/-- Settles O43: the mnemonic names the register, and `Compare` writes the status byte alone. -/
theorem compareInstructions : Obligations.CompareInstructions := by
  unfold Obligations.CompareInstructions
  intro i s hi
  have hcompares : ∀ mn ∈ ([.cmp, .cpx, .cpy] : List Mnemonic), (comparedReg mn).isSome := by decide
  obtain ⟨r, hr⟩ := Option.isSome_iff_exists.mp (hcompares _ hi)
  obtain ⟨m, hm, hx⟩ := exec_read_done i s _ (readAction_of_comparedReg _ r hr)
  refine ⟨m, compareFlags (s.reg r) m s.p, hm, ?flags, hx⟩
  case flags =>
    rintro v rfl
    rw [reg_of_comparedReg _ r hr]
    exact flagsAre_compareFlags (s.reg r) m s.p

end Sys2Proof.Machine
end

section
/-! PROOFS, 43_arith_logic. The increments and decrements, of memory and of X and Y (R231 to R236). -/

namespace Sys2Proof.Machine

/-- One up, mod 256. -/
theorem add_one_eq_ofNat (m : Byte) : m + 1 = BitVec.ofNat 8 (m.toNat + 1) := by
  rw [BitVec.ofNat_add, BitVec.ofNat_toNat, BitVec.setWidth_eq]
  rfl

/-- One down, mod 256, is 255 up. -/
theorem sub_one_eq_ofNat (m : Byte) : m - 1 = BitVec.ofNat 8 (m.toNat + 255) := by
  rw [BitVec.ofNat_add, BitVec.ofNat_toNat, BitVec.setWidth_eq, sub_eq_add_neg]
  rfl

/-- Settles O44: both are a read-modify-write whose flags are those of `SetZN` of the result. -/
theorem incDecMemory : Obligations.IncDecMemory := by
  unfold Obligations.IncDecMemory
  intro i s
  refine ⟨fun hi => ?inc, fun hi => ?dec⟩
  case inc =>
    refine exec_modify_modifies i s increment (by rw [hi]; rfl) _ _ add_one_eq_ofNat (fun m => ?_)
    rw [← add_one_eq_ofNat]
    exact flagsAre_setZN (m + 1) s.p
  case dec =>
    refine exec_modify_modifies i s decrement (by rw [hi]; rfl) _ _ sub_one_eq_ofNat (fun m => ?_)
    rw [← sub_one_eq_ofNat]
    exact flagsAre_setZN (m - 1) s.p

/-- Settles O45: each is `SetReg` of its register with 1 or -1 added. -/
theorem incDecRegister : Obligations.IncDecRegister := by
  unfold Obligations.IncDecRegister
  intro s
  exact ⟨s.x + 1, s.x + (-1), s.y + 1, s.y + (-1), _, _, _, _,
    BitVec.toNat_add s.x 1, BitVec.toNat_add s.x (-1), BitVec.toNat_add s.y 1, BitVec.toNat_add s.y (-1),
    flagsAre_setZN (s.x + 1) s.p, flagsAre_setZN (s.x + (-1)) s.p,
    flagsAre_setZN (s.y + 1) s.p, flagsAre_setZN (s.y + (-1)) s.p,
    exec_implied_done .inx s _ rfl, exec_implied_done .dex s _ rfl,
    exec_implied_done .iny s _ rfl, exec_implied_done .dey s _ rfl⟩

end Sys2Proof.Machine
end

section
/-! PROOFS, 44_shift_rotate. The shifts and rotates, on A and on memory (R260 to R264). -/

namespace Sys2Proof.Machine

/-- The flags of a shift or rotate: the bit shifted out in C, then Z and N of the result (R260). -/
theorem flagsAre_setZN_carry (r p : Byte) (out : Bool) :
    FlagsAre (setZN r (setFlag .c out p)) p ((.c, out) :: znOf r) :=
  (flagsAre_setZN r _).after_setFlag rfl

/-- A read-modify-write that writes C with a bit of the old byte and then Z and N with its result (R260). -/
theorem exec_modify_carry (i : Instr) (s : State) (f : Byte → Byte → Byte × Byte)
    (h : modifyFunction i.mnemonic = some f) (result : Byte → Byte) (out : Byte → Bool)
    (hf : ∀ m, f m s.p = (result m, setZN (result m) (setFlag .c (out m) s.p))) :
    Modifies i s result (fun m r => (.c, out m) :: znOf r) := by
  refine exec_modify_modifies i s f h result _ (fun m => ?result) (fun m => ?flags)
  case result => rw [hf]
  case flags =>
    rw [hf]
    exact flagsAre_setZN_carry (result m) s.p (out m)

/-- One bit up is the double, mod 256 (R261). -/
theorem shiftLeft_one_eq_ofNat (m : Byte) : m <<< 1 = BitVec.ofNat 8 (2 * m.toNat) := by
  apply BitVec.eq_of_toNat_eq
  rw [BitVec.toNat_shiftLeft, BitVec.toNat_ofNat, Nat.shiftLeft_eq, Nat.mul_comm, pow_one]

/-- One bit down is the half (R262). -/
theorem ushiftRight_one_eq_ofNat (m : Byte) : m >>> 1 = BitVec.ofNat 8 (m.toNat / 2) := by
  have hhalf : m.toNat / 2 < 2 ^ 8 := (Nat.div_le_self _ 2).trans_lt m.isLt
  apply BitVec.eq_of_toNat_eq
  rw [BitVec.toNat_ushiftRight, Nat.shiftRight_eq_div_pow, pow_one, BitVec.toNat_ofNat, Nat.mod_eq_of_lt hhalf]

/-- A bit that enters at bit 0 adds 1 to the double (R263). -/
theorem shiftLeft_one_or_eq_ofNat (m : Byte) (c : Bool) :
    m <<< 1 ||| BitVec.ofNat 8 c.toNat = BitVec.ofNat 8 (2 * m.toNat + c.toNat) := by
  have hor : 2 * m.toNat + c.toNat = 2 * m.toNat ||| c.toNat := by
    simpa using Nat.two_pow_add_eq_or_of_lt (i := 1) c.toNat_lt m.toNat
  rw [shiftLeft_one_eq_ofNat, hor, BitVec.ofNat_or]

/-- A bit that enters at bit 7 adds 128 to the half (R264). -/
theorem ushiftRight_one_or_eq_ofNat (m : Byte) (c : Bool) :
    m >>> 1 ||| BitVec.ofNat 8 c.toNat <<< 7 = BitVec.ofNat 8 (m.toNat / 2 + 128 * c.toNat) := by
  have hhalf : m.toNat / 2 < 2 ^ 7 := Nat.div_lt_of_lt_mul m.isLt
  have htop : BitVec.ofNat 8 c.toNat <<< 7 = BitVec.ofNat 8 (128 * c.toNat) := by cases c <;> rfl
  have hor : 128 * c.toNat + m.toNat / 2 = 128 * c.toNat ||| m.toNat / 2 := Nat.two_pow_add_eq_or_of_lt hhalf c.toNat
  rw [ushiftRight_one_eq_ofNat, htop, Nat.add_comm, hor, Nat.or_comm, BitVec.ofNat_or]

/-- Settles O46: the bit shifted out is bit 7 of the doubled byte and bit 0 of the halved one. -/
theorem shiftInstructions : Obligations.ShiftInstructions := by
  unfold Obligations.ShiftInstructions
  intro i s
  refine ⟨fun hi => ?asl, fun hi => ?lsr⟩
  case asl =>
    refine exec_modify_carry i s shiftLeft (by rw [hi]; rfl) _ (·.getLsbD 7) (fun m => ?_)
    rw [← shiftLeft_one_eq_ofNat, shiftLeft]
  case lsr =>
    refine exec_modify_carry i s shiftRight (by rw [hi]; rfl) _ (·.getLsbD 0) (fun m => ?_)
    rw [← ushiftRight_one_eq_ofNat, shiftRight]

/-- Settles O47: as the shifts, with the old carry added at the end the shift vacates. -/
theorem rotateInstructions : Obligations.RotateInstructions := by
  unfold Obligations.RotateInstructions
  intro i s
  refine ⟨fun hi => ?rol, fun hi => ?ror⟩
  case rol =>
    refine exec_modify_carry i s rotateLeft (by rw [hi]; rfl) _ (·.getLsbD 7) (fun m => ?_)
    rw [← shiftLeft_one_or_eq_ofNat, rotateLeft, carryIn]
  case ror =>
    refine exec_modify_carry i s rotateRight (by rw [hi]; rfl) _ (·.getLsbD 0) (fun m => ?_)
    rw [← ushiftRight_one_or_eq_ofNat, rotateRight, carryIn]

end Sys2Proof.Machine
end

section
/-! PROOFS, 45_control. The branches: the target and the cycles (R280 to R288). -/

namespace Sys2Proof.Machine

/-- A branch goes to PC plus the signed offset, mod 65536 (R105, R280). -/
theorem branchTarget_eq_ofInt (pc : Addr) (o : Byte) :
    branchTarget pc o = BitVec.ofInt 16 (pc.toNat + o.toInt) := by
  rw [branchTarget, BitVec.signExtend, BitVec.ofInt_add, BitVec.ofInt_natCast, BitVec.ofNat_toNat, BitVec.setWidth_eq]

/-- With no page crossed by an operand, a step costs its base cycles and its own penalty (R148, R153). -/
theorem cycleTotal_not_crossed (op : Byte) (extra : Nat) :
    cycleTotal op false extra = (descriptor op).baseCycles + extra := by
  rw [cycleTotal, Bool.and_false]
  rfl

/-- A branch whose row has 2 base cycles costs 2, 3 or 4, and writes nothing but PC and the result (R280). -/
theorem execBranch_done (op : Byte) (cond : Bool) (o : Byte) (s : State) (hbase : (descriptor op).baseCycles = 2) :
    let t := BitVec.ofInt 16 (s.pc.toNat + o.toInt)
    execBranch op cond o s = .next (if cond then
      { s with pc := t, result := some ⟨if t.toNat / 256 = s.pc.toNat / 256 then 3 else 4, none⟩ }
      else { s with result := some ⟨2, none⟩ }) := by
  intro t
  have htarget : branchTarget s.pc o = t := branchTarget_eq_ofInt s.pc o
  rw [execBranch_eq, htarget, finish_eq, cycleTotal_not_crossed, hbase]
  cases cond with
  | false => rfl
  | true =>
    by_cases hpage : t.toNat / 256 = s.pc.toNat / 256 <;> simp [page_eq_iff, hpage, State.setPc]

/-- Settles O48: each branch is `execBranch` of its flag, and each row has 2 base cycles. -/
theorem branchInstructions : Obligations.BranchInstructions := by
  unfold Obligations.BranchInstructions
  intro o s
  exact ⟨execBranch_done 0x10 _ o s rfl, execBranch_done 0x30 _ o s rfl, execBranch_done 0x50 _ o s rfl,
    execBranch_done 0x70 _ o s rfl, execBranch_done 0x90 _ o s rfl, execBranch_done 0xB0 _ o s rfl,
    execBranch_done 0xD0 _ o s rfl, execBranch_done 0xF0 _ o s rfl⟩

end Sys2Proof.Machine
end

section
/-! PROOFS, 45_control. The jumps: the page wrap of the pointer (R289, R290). -/

namespace Sys2Proof.Machine

/-- A word, as the number its two bytes make (R10). -/
theorem word_eq_ofNat (lo hi : Byte) : word lo hi = BitVec.ofNat 16 (lo.toNat + 256 * hi.toNat) := by
  rw [← word_toNat, BitVec.ofNat_toNat, BitVec.setWidth_eq]

/-- The high byte of a pointer is at the next address of the same page (R290, decision D11). -/
theorem pointerHigh_eq_ofNat (ptr : Addr) :
    pointerHigh ptr = BitVec.ofNat 16 (256 * (ptr.toNat / 256) + (ptr.toNat + 1) % 256) := by
  have hlow : ((ptr + 1) &&& 0x00FF).toNat = (ptr.toNat + 1) % 256 := by
    rw [BitVec.toNat_and, BitVec.toNat_add]
    exact (Nat.and_two_pow_sub_one_eq_mod _ 8).trans (Nat.mod_mod_of_dvd _ ⟨256, rfl⟩)
  have hor := Nat.two_pow_add_eq_or_of_lt (i := 8) (Nat.mod_lt (ptr.toNat + 1) (by decide)) (ptr.toNat / 256)
  rw [← BitVec.setWidth_eq (pointerHigh ptr), ← BitVec.ofNat_toNat, pointerHigh, BitVec.toNat_or, page_toNat, hlow,
    Nat.mul_comm]
  exact congrArg _ hor.symm

/-- Settles O49: JMP absolute only sets PC, and JMP indirect reads the word of its pointer. -/
theorem jumpInstructions : Obligations.JumpInstructions := by
  unfold Obligations.JumpInstructions
  intro a s hi
  have hhigh : hi = pointerHigh a := (pointerHigh_eq_ofNat a).symm
  refine ⟨?absolute, ?indirect⟩
  case absolute => rfl
  case indirect =>
    rw [hhigh, ← word_eq_ofNat]
    rfl

end Sys2Proof.Machine
end

section
/-! PROOFS, 45_control. Words on the stack: what a push and a pull of a word do, and the word read back (R13, R147). -/

namespace Sys2Proof.Machine

/-- The bus after a push of a word at `sp`: two stack bytes, the high one first (R65). -/
def Bus.pushWord (b : Bus) (sp : Byte) (w : Addr) : Bus :=
  (b.write (stackAddr sp) (hiByte w)).write (stackAddr (sp - 1)) (loByte w)

/-- A push of a word writes its two stack bytes and moves SP down by two (R13, R65). -/
theorem State.pushWord_eq (s : State) (w : Addr) :
    s.pushWord w = { s with bus := s.bus.pushWord s.sp w, sp := s.sp - 2 } := by
  have hsp : s.sp - 1 - 1 = s.sp - 2 := BitVec.sub_sub s.sp 1 1
  simp only [State.pushWord, State.push_eq, hsp, Bus.pushWord]

/-- A pull of a word only moves SP, up by two (R13, R147). -/
theorem State.afterPullWord_eq (s : State) : s.afterPullWord = s.setSp (s.sp + 2) := by
  have hsp : s.sp + 1 + 1 = s.sp + 2 := BitVec.add_assoc s.sp 1 1
  rw [State.afterPullWord, State.afterPull_eq, State.afterPull_eq, State.setSp_sp, hsp]
  rfl

/-- A pulled word is made of the two stack bytes above SP, the low one first (R13, R147). -/
theorem State.pulledWord_eq (s : State) :
    s.pulledWord = word (s.bus.read (stackAddr (s.sp + 1))) (s.bus.read (stackAddr (s.sp + 2))) := by
  have hsp : s.sp + 1 + 1 = s.sp + 2 := BitVec.add_assoc s.sp 1 1
  rw [State.pulledWord, State.afterPull_eq, State.pulled, State.pulled, State.setSp_sp, hsp]
  rfl

/-- The two stack bytes of a pushed word make the word again. -/
theorem Bus.word_read_pushWord (b : Bus) (sp : Byte) (w : Addr) (hw : Memory.wf b) :
    word ((b.pushWord sp w).read (stackAddr (sp - 1))) ((b.pushWord sp w).read (stackAddr sp)) = w := by
  have hlow : (b.pushWord sp w).read (stackAddr (sp - 1)) = loByte w :=
    Bus.read_write_stack_same _ _ _ (Memory.wf_write b _ _ hw)
  have hhigh : (b.pushWord sp w).read (stackAddr sp) = hiByte w :=
    (Bus.read_write_stack_other _ _ _ _ (by bv_omega)).trans (Bus.read_write_stack_same b sp _ hw)
  rw [hlow, hhigh, word_loByte_hiByte]

end Sys2Proof.Machine
end

section
/-! PROOFS, 45_control. Subroutines: JSR, RTS and their round trip (R296 to R298). -/

namespace Sys2Proof.Machine

/-- JSR completes with PC - 1 pushed and PC at the target (R296). -/
theorem exec_jsr (a : Addr) (s : State) :
    exec (.jsr a) s = .next { s.done (.jsr a) with
      bus := s.bus.pushWord s.sp (s.pc - 1), sp := s.sp - 2, pc := a } := by
  rw [exec, execJsr, State.pushWord_eq]
  rfl

/-- RTS completes with PC after the pulled word and SP up by two (R297). -/
theorem exec_rts (s : State) :
    exec .rts s = .next { s.done .rts with sp := s.sp + 2, pc := s.pulledWord + 1 } := by
  rw [exec_implied_done .rts s _ rfl, returnFromSubroutine, State.afterPullWord_eq]
  rfl

/-- Settles O50: JSR pushes a word, RTS pulls one. -/
theorem subroutineInstructions : Obligations.SubroutineInstructions := by
  unfold Obligations.SubroutineInstructions
  intro a s
  refine ⟨exec_jsr a s, ?rts⟩
  rw [exec_rts, State.pulledWord_eq, word_eq_ofNat, BitVec.ofNat_add _ 1]
  rfl

/-- Settles O51: the word RTS pulls is the one JSR pushed, PC - 1. -/
theorem jsrRtsRoundTrip : Obligations.JsrRtsRoundTrip := by
  unfold Obligations.JsrRtsRoundTrip
  intro a s s₁ u hw hjsr hsp hstack
  rw [exec_jsr] at hjsr
  cases hjsr
  dsimp only at hsp hstack
  have hlow : s.sp - 2 + 1 = s.sp - 1 := sub_add s.sp 2 1
  have hhigh : s.sp - 2 + 2 = s.sp := BitVec.sub_add_cancel s.sp 2
  have hword : u.pulledWord = s.pc - 1 := by
    rw [State.pulledWord_eq, hsp, hstack _ (.inl rfl), hstack _ (.inr rfl), hlow, hhigh]
    exact s.bus.word_read_pushWord s.sp (s.pc - 1) hw
  refine ⟨_, exec_rts u, ?pc, ?sp⟩
  case pc => exact hword ▸ BitVec.sub_add_cancel s.pc 1
  case sp => exact hsp ▸ hhigh

end Sys2Proof.Machine
end

section
/-! PROOFS, 45_control. BRK, RTI and their round trip (R292 to R294, R333 to R336). -/

namespace Sys2Proof.Machine

/-- The bus BRK leaves: PC high, PC low and P as stored, pushed in this order (R292, decisions D2 and D3). -/
def State.busAfterBrk (s : State) : Bus :=
  (s.bus.pushWord s.sp s.pc).write (stackAddr (s.sp - 2)) s.p

/-- The stack lies outside the ROM, so the BRK vector reads as it did before the pushes (R57, R68). -/
theorem State.read_busAfterBrk_rom (s : State) (a : Addr) (h : 0x8000 ≤ a.toNat) :
    s.busAfterBrk.read a = s.bus.read a :=
  Bus.read_eq_of_image_eq _ _ a h (by simp [State.busAfterBrk, Bus.pushWord])

/-- Entry through the BRK vector pushes three bytes, sets I and loads PC from the vector (R292, R333, R334). -/
theorem State.enterVector_brkVector (s : State) :
    s.enterVector Config.brkVector = { s with
      bus := s.busAfterBrk, sp := s.sp - 3, p := setFlag .i true s.p
      pc := word (s.bus.read 0xFFFE) (s.bus.read 0xFFFF) } := by
  have hsp : s.sp - 2 - 1 = s.sp - 3 := BitVec.sub_sub s.sp 2 1
  rw [← s.read_busAfterBrk_rom 0xFFFE (by decide), ← s.read_busAfterBrk_rom 0xFFFF (by decide)]
  simp only [State.enterVector, State.afterReadWord_brkVector, State.pushWord_eq, State.push_eq, hsp]
  rfl

/-- BRK completes with its entry (R292). -/
theorem exec_brk (s : State) :
    exec .brk s = .next { s.done .brk with
      bus := s.busAfterBrk, sp := s.sp - 3, p := setFlag .i true s.p
      pc := word (s.bus.read 0xFFFE) (s.bus.read 0xFFFF) } := by
  rw [exec_implied_done .brk s _ rfl, State.enterVector_brkVector]
  rfl

/-- RTI completes with P and then PC pulled, and SP up by three (R293, R336). -/
theorem exec_rti (s : State) :
    exec .rti s = .next { s.done .rti with
      p := s.bus.read (stackAddr (s.sp + 1))
      pc := word (s.bus.read (stackAddr (s.sp + 2))) (s.bus.read (stackAddr (s.sp + 3)))
      sp := s.sp + 3 } := by
  have hlow : s.sp + 1 + 1 = s.sp + 2 := BitVec.add_assoc s.sp 1 1
  have hhigh : s.sp + 1 + 2 = s.sp + 3 := BitVec.add_assoc s.sp 1 2
  rw [exec_implied_done .rti s _ rfl, ← hlow, ← hhigh]
  simp only [State.leaveVector, State.afterPullWord_eq, State.pulledWord_eq, State.afterPull_eq]
  rfl

/-- Settles O52: the entry writes no flag but I. -/
theorem brkEntersThroughVector : Obligations.BrkEntersThroughVector := by
  unfold Obligations.BrkEntersThroughVector
  exact fun s => ⟨setFlag .i true s.p, flagsAre_setFlag .i true s.p, exec_brk s⟩

/-- Settles O53: one pull for P and two for PC. -/
theorem rtiReturns : Obligations.RtiReturns := by
  unfold Obligations.RtiReturns
  exact exec_rti

/-- P as it was before BRK stands in the last byte pushed. -/
theorem State.read_busAfterBrk_status (s : State) (hw : s.wf) : s.busAfterBrk.read (stackAddr (s.sp - 2)) = s.p :=
  Bus.read_write_stack_same _ _ _ (Memory.wf_write _ _ _ (Memory.wf_write _ _ _ hw))

/-- PC stands in the two bytes pushed before P. -/
theorem State.word_read_busAfterBrk (s : State) (hw : s.wf) :
    word (s.busAfterBrk.read (stackAddr (s.sp - 1))) (s.busAfterBrk.read (stackAddr s.sp)) = s.pc := by
  have hlow : s.busAfterBrk.read (stackAddr (s.sp - 1)) = (s.bus.pushWord s.sp s.pc).read (stackAddr (s.sp - 1)) :=
    Bus.read_write_stack_other _ _ _ _ (by bv_omega)
  have hhigh : s.busAfterBrk.read (stackAddr s.sp) = (s.bus.pushWord s.sp s.pc).read (stackAddr s.sp) :=
    Bus.read_write_stack_other _ _ _ _ (by bv_omega)
  rw [hlow, hhigh]
  exact s.bus.word_read_pushWord s.sp s.pc hw

/-- Settles O54: the three bytes RTI pulls are those BRK pushed, P before I was set and PC. -/
theorem brkRtiRoundTrip : Obligations.BrkRtiRoundTrip := by
  unfold Obligations.BrkRtiRoundTrip
  intro s s₁ u hw hbrk hsp hstack
  rw [exec_brk] at hbrk
  cases hbrk
  dsimp only at hsp hstack
  have hstatus : s.sp - 3 + 1 = s.sp - 2 := sub_add s.sp 3 1
  have hlow : s.sp - 3 + 2 = s.sp - 1 := sub_add s.sp 3 2
  have hhigh : s.sp - 3 + 3 = s.sp := BitVec.sub_add_cancel s.sp 3
  refine ⟨_, exec_rti u, ?pc, ?p, ?sp⟩
  case pc =>
    rw [hsp, hstack _ (.inr (.inl rfl)), hstack _ (.inr (.inr rfl)), hlow, hhigh]
    exact s.word_read_busAfterBrk hw
  case p =>
    rw [hsp, hstack _ (.inl rfl), hstatus]
    exact s.read_busAfterBrk_status hw
  case sp => exact hsp ▸ hhigh

end Sys2Proof.Machine
end

section
/-! PROOFS, 46_flag_misc. The flag instructions and NOP (R310 to R317). -/

namespace Sys2Proof.Machine

/-- An instruction whose action is to write one flag completes with P changed in that flag only (R310 to R316). -/
theorem exec_writeFlag (i : Instr) (f : Flag) (b : Bool) (s : State)
    (h : impliedAction i.mnemonic = some (writeFlag f b)) :
    ∃ p', FlagsAre p' s.p [(f, b)] ∧ exec i s = .next { s.done i with p := p' } :=
  ⟨setFlag f b s.p, flagsAre_setFlag f b s.p, exec_implied_done i s (writeFlag f b) h⟩

/-- Settles O55: the action of each is one flag written, and that of NOP the identity. -/
theorem flagInstructions : Obligations.FlagInstructions := by
  unfold Obligations.FlagInstructions
  intro s
  exact ⟨exec_writeFlag .clc .c false s rfl, exec_writeFlag .cld .d false s rfl,
    exec_writeFlag .cli .i false s rfl, exec_writeFlag .clv .v false s rfl,
    exec_writeFlag .sec .c true s rfl, exec_writeFlag .sed .d true s rfl,
    exec_writeFlag .sei .i true s rfl, exec_implied_done .nop s id rfl⟩

end Sys2Proof.Machine
end

section
/-! PROOFS, 60_exceptions. The condition of a step (R330, R339). -/

namespace Sys2Proof.Machine

/-- A well-formed instruction whose opcode is one of the 105 bytes is that byte's illegal instruction (R110). -/
theorem eq_illegal_of_opcode_mem (i : Instr) (hwf : i.wellFormed) (h : opcode i ∈ illegalBytes) :
    i = .illegal (opcode i) := by
  have hmn : i.mnemonic = .illegal := by
    rw [← (descriptor_opcode i hwf).1, descriptor_illegal_iff]
    exact h
  obtain ⟨op, rfl⟩ := eq_illegal_of_mnemonic i hmn
  rfl

/-- The meaning of an illegal byte runs one past it (R131, R339). -/
theorem State.afterInstr_pc_of_illegal (s : State) (h : s.bus.read s.pc ∈ illegalBytes) :
    s.afterInstr.pc = s.pc + 1 := by
  rw [State.afterInstr_eq, (illegal_row _ h).1]
  rfl

/-- An illegal byte ends with the condition of the byte and of the address before PC (R330, R339). -/
theorem exec_illegal_result (op : Byte) (s : State) :
    ∃ t n, exec (.illegal op) s = .next t ∧ t.result = some ⟨n, some (.unimplementedOpcode op (s.pc - 1))⟩ :=
  ⟨_, _, rfl, rfl⟩

/-- Every other instruction ends with no condition (R156, R330). -/
theorem exec_result_of_not_illegal (i : Instr) (s : State) (h : ∀ op, i ≠ .illegal op) :
    ∃ t n, exec i s = .next t ∧ t.result = some ⟨n, none⟩ := by
  rcases exec_finish i s with ⟨t, ht⟩ | ⟨op, hi⟩
  · exact ⟨_, _, ht.trans (finish_eq _ _ _ _), rfl⟩
  · exact absurd hi (h op)

/-- Settles O26: the fetched instruction is an illegal one exactly if the byte at PC is one of the 105. -/
theorem conditionExactlyOnIllegalBytes : Obligations.ConditionExactlyOnIllegalBytes := by
  unfold Obligations.ConditionExactlyOnIllegalBytes
  intro s hready
  obtain ⟨hop, hwf⟩ := s.fetchedInstr_spec
  rw [step_of_ready s hready]
  by_cases hill : s.bus.read s.pc ∈ illegalBytes
  case pos =>
    have hi : s.fetchedInstr = .illegal (s.bus.read s.pc) := hop ▸ eq_illegal_of_opcode_mem _ hwf (hop ▸ hill)
    have haddr : s.afterInstr.pc - 1 = s.pc := by
      rw [s.afterInstr_pc_of_illegal hill]
      exact BitVec.add_sub_cancel s.pc 1
    rw [if_pos hill, hi, ← haddr]
    exact exec_illegal_result _ _
  case neg =>
    rw [if_neg hill]
    refine exec_result_of_not_illegal _ _ fun op hi => hill ?_
    rw [hi] at hop hwf
    exact hop ▸ List.contains_iff_mem.mp hwf

end Sys2Proof.Machine
end

section
/-! PROOFS, 70_reset_and_hazards. Reset and boot (R68, R360 to R366). -/

namespace Sys2Proof.Machine

/-- The state after `reset()`: the vector lies in ROM, so reading it logs nothing (R360, decision D4). -/
theorem State.hostReset_eq (s : State) :
    s.hostReset = { s with
      a := 0x00, x := 0x00, y := 0x00, sp := 0xFD, p := 0x00, run := .ready, result := none
      pc := word (s.bus.read 0xFFFC) (s.bus.read 0xFFFD) } := by
  rw [State.hostReset, State.afterReadWord_resetVector]
  rfl

/-- Settles O21: all that reset writes is constant or read from the bus, which reset leaves. -/
theorem hostResetLoadsVector : Obligations.HostResetLoadsVector := by
  unfold Obligations.HostResetLoadsVector
  refine fun s => ⟨s.hostReset_eq, ?_⟩
  rw [s.hostReset.hostReset_eq, s.hostReset_eq]

/-- Settles O22: PC is the word at the vector. -/
theorem resetReadsVectorNotConstant : Obligations.ResetReadsVectorNotConstant := by
  unfold Obligations.ResetReadsVectorNotConstant
  intro s
  rw [State.hostReset_eq]
  exact word_toNat _ _

/-- The last 16 KiB of the address space end where the program ROM ends, for both legal sizes (R57, R68). -/
theorem Bus.read_from_rom_end (b : Bus) (a : Addr) (hsize : prgSizeLegal b.prg.size) (ha : 0xC000 ≤ a.toNat) :
    b.read a = b.prg.read (b.prg.size - (0x10000 - a.toNat)) := by
  have hlt := a.isLt
  have hindex : (a.toNat - 0x8000) % b.prg.size = b.prg.size - (0x10000 - a.toNat) := by
    rcases (prgSizeLegal_iff _).mp hsize with h | h <;> rw [h] <;> omega
  rw [b.read_rom a (by omega), hindex]

/-- An input that boots parses, its image makes a bus, and the machine is that bus after `reset()` (R365). -/
theorem boot_eq_ok (bytes : List Byte) (init : PowerOn) (s : State) (h : boot bytes init = .ok s) :
    ∃ img b, parse bytes = .ok img ∧ newBus img init = .ok b ∧ s = (State.reset.setBus b).hostReset := by
  unfold boot at h
  split at h
  case h_1 => cases h
  case h_2 img hparse =>
    split at h
    case h_1 => cases h
    case h_2 b hbus => exact ⟨img, b, hparse, hbus, (Except.ok.inj h).symm⟩

/-- An input that parses gives the image its header describes (R91). -/
theorem eq_containerImage_of_parse (bytes : List Byte) (img : CartridgeImage) (h : parse bytes = .ok img) :
    img = containerImage bytes := by
  rw [parse_eq] at h
  split_ifs at h
  exact (Except.ok.inj h).symm

/-- An image that makes a bus has a legal size, and the bus holds it with the OPEN contents (R31, R74). -/
theorem eq_bus_of_newBus (img : CartridgeImage) (init : PowerOn) (b : Bus) (h : newBus img init = .ok b) :
    prgSizeLegal img.prgRom.size ∧ b = init.bus img := by
  by_cases hsize : prgSizeLegal img.prgRom.size
  case pos => exact ⟨hsize, Except.ok.inj (h.symm.trans (newBus_of_legal img init hsize))⟩
  case neg => exact nomatch h.symm.trans (newBus_of_not_legal img init hsize)

/-- Settles O60: the parsed image is canonical and of a legal size, so the bus is, and reset keeps the bus. -/
theorem bootedMachine : Obligations.BootedMachine := by
  unfold Obligations.BootedMachine
  intro bytes init s hboot
  obtain ⟨img, b, hparse, hbus, rfl⟩ := boot_eq_ok bytes init s hboot
  obtain ⟨hsize, rfl⟩ := eq_bus_of_newBus img init b hbus
  have hwf : Memory.wf (init.bus img) :=
    init.wf_bus img (eq_containerImage_of_parse bytes img hparse ▸ containerImage_wf bytes) hsize
  have hpc := congrArg₂ word ((init.bus img).read_from_rom_end 0xFFFC hsize (by decide))
    ((init.bus img).read_from_rom_end 0xFFFD hsize (by decide))
  rw [State.hostReset_eq]
  exact ⟨hparse, hbus, hwf, rfl, rfl, rfl, rfl, rfl, rfl, rfl, rfl, hpc⟩

end Sys2Proof.Machine
end
